-- ==== Sys2Proof/Word.lean ====
section
/-! DEFINITION. The widths of DFC's data: bytes, register words, host bus addresses and whole bus transactions
(spec/00_scope.md R9, spec/20_memory.md R60, spec/30_encoding.md R97). -/

namespace Sys2Proof

/-- A byte, 0..255 (R9). -/
abbrev Byte := BitVec 8

/-- A 32-bit register word (R2, R62). -/
abbrev Word := BitVec 32

/-- An 11-bit host bus byte address (R60). -/
abbrev Addr := BitVec 11

/-- One host bus transaction as a 44-bit value: W at bit 43, A at 42:32, D at 31:0 (R97). -/
abbrev BusWord := BitVec 44

/-- The data signals of the TX port, `tx_data[63:0]` (R94). -/
abbrev TxData := BitVec 64

/-- The data signals of the RX port, `rx_data[8*RB-1:0]`, for the widest instance, RB = 32 (R6, R95); an instance has
the low 8*RB of them (log entry 8). -/
abbrev RxData := BitVec 256

end Sys2Proof
end

