-- ==== Sys2Proof/Syntax.lean ====
section
/-! DEFINITION. Every command and every host bus operation of DFC, one constructor per mnemonic of
spec/opcode_table.json (spec/30_encoding.md R96, R97). -/

namespace Sys2Proof

/-- The instructions of DFC: the six commands, which have no operand field (R96), and the twenty-four host bus
operations (R97). A window operation carries its word index, a write its data word D. -/
inductive Instr where
  /-- CMD 0x00000000 (R210). -/
  | nop
  /-- CMD 0x00000001 (R121). -/
  | encode
  /-- CMD 0x00000002 (R151). -/
  | send
  /-- CMD 0x00000003 (R152). -/
  | encsend
  /-- CMD 0x00000004 (R122). -/
  | decode
  /-- CMD 0x00000005 (R178). -/
  | getframes
  /-- Write CTRL, 0x000 (R214). -/
  | wrCtrl (d : Word)
  /-- Read CTRL (R215). -/
  | rdCtrl
  /-- Write STATUS, 0x004 (R216). -/
  | wrStatus (d : Word)
  /-- Read STATUS (R217). -/
  | rdStatus
  /-- Write CMD, 0x008: command acceptance (R212). -/
  | wrCmd (d : Word)
  /-- Read CMD (R213). -/
  | rdCmd
  /-- Read ERRINFO, 0x00C (R218). -/
  | rdErrinfo
  /-- Read PARAM, 0x010 (R219). -/
  | rdParam
  /-- Write TXTYPE, 0x014 (R220). -/
  | wrTxtype (d : Word)
  /-- Read TXTYPE (R221). -/
  | rdTxtype
  /-- Write PLEN, 0x018 (R222). -/
  | wrPlen (d : Word)
  /-- Read PLEN (R223). -/
  | rdPlen
  /-- Write FLEN, 0x01C (R224). -/
  | wrFlen (d : Word)
  /-- Read FLEN (R225). -/
  | rdFlen
  /-- Read DRES, 0x020 (R226). -/
  | rdDres
  /-- Read RXLEN, 0x024 (R227). -/
  | rdRxlen
  /-- Read RXCNT, 0x028 (R228). -/
  | rdRxcnt
  /-- Read CNT, 0x02C (R229). -/
  | rdCnt
  /-- Write word `i` of the PBUF window, 0x100 + 4i, i = 0..63 (R230). -/
  | wrPbuf (i : BitVec 6) (d : Word)
  /-- Read word `i` of the PBUF window (R231). -/
  | rdPbuf (i : BitVec 6)
  /-- Write word `i` of the FBUF window, 0x200 + 4i, i = 0..64 (R232). -/
  | wrFbuf (i : BitVec 7) (d : Word)
  /-- Read word `i` of the FBUF window (R233). -/
  | rdFbuf (i : BitVec 7)
  /-- Read word `i` of the RXQ window, 0x400 + 4i, i = 0..255 (R234). -/
  | rdRxq (i : BitVec 8)
  /-- A write to a read-only location (R235). -/
  | wrRo (a : Addr) (d : Word)
  deriving DecidableEq, Repr

end Sys2Proof
end

