-- ==== Sys2Proof/WellFormed.lean ====
section
/-! DEFINITION. Which terms of `Instr` an encoding exists for (spec/30_encoding.md R97): two operands have a range
that their bits do not already enforce. -/

namespace Sys2Proof

/-- The read-only locations that WR_RO writes to: ERRINFO, PARAM, DRES, RXLEN, RXCNT, CNT and every aligned word of
the RXQ window (R97, R235). -/
def readOnlyAddr (a : Addr) : Bool :=
  a = 0x00C#11 || a = 0x010#11 || a = 0x020#11 || a = 0x024#11 || a = 0x028#11 || a = 0x02C#11
    || (a.getLsbD 10 && a.extractLsb' 0 2 = 0#2)

/-- The FBUF window has words 0..64 (R97, R232). -/
def fbufWordIndex (i : BitVec 7) : Bool := i.toNat ≤ 64

/-- Every operand is in the range that the instruction's encoding admits. -/
def Instr.wf : Instr → Bool
  | .wrFbuf i _ => fbufWordIndex i
  | .rdFbuf i => fbufWordIndex i
  | .wrRo a _ => readOnlyAddr a
  | .nop | .encode | .send | .encsend | .decode | .getframes
  | .wrCtrl _ | .rdCtrl | .wrStatus _ | .rdStatus | .wrCmd _ | .rdCmd | .rdErrinfo | .rdParam
  | .wrTxtype _ | .rdTxtype | .wrPlen _ | .rdPlen | .wrFlen _ | .rdFlen
  | .rdDres | .rdRxlen | .rdRxcnt | .rdCnt | .wrPbuf _ _ | .rdPbuf _ | .rdRxq _ => true

end Sys2Proof
end

