-- ==== Sys2Proof/Decode.lean ====
section
/-! DEFINITION. The decoder of the two instruction formats, CMD and BUS (spec/30_encoding.md R96 to R100), total and
rejecting by name; the encoder written from the same encoding rules; and the rows of spec/opcode_table.json.
DFC fetches nothing and has no instruction memory (R39, R73): a command arrives as the 32-bit value written to CMD, a
bus operation as one 44-bit transaction, so an instruction is a value with no byte order. -/

namespace Sys2Proof

/-- An instruction as it reaches DFC: a command word in CMD, or a host bus transaction (R90). -/
inductive Enc where
  | cmd (w : Word)
  | bus (t : BusWord)
  deriving DecidableEq, Repr

/-- Why an encoding stands for no instruction of the table. -/
inductive Reject where
  /-- A CMD word with one of the reserved bits 31:8 set (R98). -/
  | reservedCommandBits
  /-- A CMD word whose opcode R96 does not list (R98). -/
  | unlistedOpcode
  /-- A bus address with bits 1:0 not zero (R63). -/
  | misaligned
  /-- A bus address at which nothing is mapped (R61, R64). -/
  | reservedAddress
  deriving DecidableEq, Repr

/-! ## The fields of a bus transaction (R97) -/

/-- W, bit 43: 1 for a write. -/
def busW (t : BusWord) : Bool := t.getLsbD 43

/-- A, bits 42:32: the byte address. -/
def busA (t : BusWord) : Addr := t.extractLsb' 32 11

/-- D, bits 31:0: the write data. -/
def busD (t : BusWord) : Word := t.extractLsb' 0 32

/-- The transaction with the fields W, A and D: `W << 43 | A << 32 | D` (R97, R101). -/
def busOf (wr : Bool) (a : Addr) (d : Word) : BusWord := (BitVec.ofBool wr ++ a) ++ d

/-- The bits 1:0 of an aligned address are zero (R63). -/
def aligned (a : Addr) : Bool := a.extractLsb' 0 2 = 0#2

/-- The region number of a window address, bits 10:8: 1 is PBUF, 2 is FBUF (R61). -/
def region (a : Addr) : BitVec 3 := a.extractLsb' 8 3

/-! ## Decoding -/

/-- The opcode map of CMD words (R96): bits 31:8 must be 0, bits 7:0 are the opcode. -/
def decodeCmd (w : Word) : Except Reject Instr :=
  if w.extractLsb' 8 24 = 0#24 then
    if w.extractLsb' 0 8 = 0x00#8 then .ok .nop
    else if w.extractLsb' 0 8 = 0x01#8 then .ok .encode
    else if w.extractLsb' 0 8 = 0x02#8 then .ok .send
    else if w.extractLsb' 0 8 = 0x03#8 then .ok .encsend
    else if w.extractLsb' 0 8 = 0x04#8 then .ok .decode
    else if w.extractLsb' 0 8 = 0x05#8 then .ok .getframes
    else .error .unlistedOpcode
  else .error .reservedCommandBits

/-- The bus operation map for writes, W = 1 (R97). -/
def decodeWrite (a : Addr) (d : Word) : Except Reject Instr :=
  if !aligned a then .error .misaligned
  else if a = 0x000#11 then .ok (.wrCtrl d)
  else if a = 0x004#11 then .ok (.wrStatus d)
  else if a = 0x008#11 then .ok (.wrCmd d)
  else if a = 0x014#11 then .ok (.wrTxtype d)
  else if a = 0x018#11 then .ok (.wrPlen d)
  else if a = 0x01C#11 then .ok (.wrFlen d)
  else if region a = 1#3 then .ok (.wrPbuf (a.extractLsb' 2 6) d)
  else if region a = 2#3 then .ok (.wrFbuf ((a.extractLsb' 2 6).setWidth 7) d)
  else if a = 0x300#11 then .ok (.wrFbuf 64#7 d)
  else if readOnlyAddr a then .ok (.wrRo a d)
  else .error .reservedAddress

/-- The bus operation map for reads, W = 0 (R97). The table's masks leave D open for a read, so D is not looked at
(log entry 5). -/
def decodeRead (a : Addr) : Except Reject Instr :=
  if !aligned a then .error .misaligned
  else if a = 0x000#11 then .ok .rdCtrl
  else if a = 0x004#11 then .ok .rdStatus
  else if a = 0x008#11 then .ok .rdCmd
  else if a = 0x00C#11 then .ok .rdErrinfo
  else if a = 0x010#11 then .ok .rdParam
  else if a = 0x014#11 then .ok .rdTxtype
  else if a = 0x018#11 then .ok .rdPlen
  else if a = 0x01C#11 then .ok .rdFlen
  else if a = 0x020#11 then .ok .rdDres
  else if a = 0x024#11 then .ok .rdRxlen
  else if a = 0x028#11 then .ok .rdRxcnt
  else if a = 0x02C#11 then .ok .rdCnt
  else if region a = 1#3 then .ok (.rdPbuf (a.extractLsb' 2 6))
  else if region a = 2#3 then .ok (.rdFbuf ((a.extractLsb' 2 6).setWidth 7))
  else if a = 0x300#11 then .ok (.rdFbuf 64#7)
  else if a.getLsbD 10 then .ok (.rdRxq (a.extractLsb' 2 8))
  else .error .reservedAddress

/-- The bus operation map (R97): every (W, A) pair it does not list is rejected. -/
def decodeBus (t : BusWord) : Except Reject Instr :=
  if busW t then decodeWrite (busA t) (busD t) else decodeRead (busA t)

/-- The decoder of both formats. -/
def decode : Enc → Except Reject Instr
  | .cmd w => decodeCmd w
  | .bus t => decodeBus t

/-! ## Encoding -/

/-- The address of word `i` of a window: base + 4 i (R230 to R234). -/
def windowAddr (base : Addr) (i : Addr) : Addr := base + (i <<< 2)

/-- The encoding of each instruction (R96, R97). -/
def encode : Instr → Enc
  | .nop => .cmd 0x00000000#32
  | .encode => .cmd 0x00000001#32
  | .send => .cmd 0x00000002#32
  | .encsend => .cmd 0x00000003#32
  | .decode => .cmd 0x00000004#32
  | .getframes => .cmd 0x00000005#32
  | .wrCtrl d => .bus (busOf true 0x000#11 d)
  | .rdCtrl => .bus (busOf false 0x000#11 0#32)
  | .wrStatus d => .bus (busOf true 0x004#11 d)
  | .rdStatus => .bus (busOf false 0x004#11 0#32)
  | .wrCmd d => .bus (busOf true 0x008#11 d)
  | .rdCmd => .bus (busOf false 0x008#11 0#32)
  | .rdErrinfo => .bus (busOf false 0x00C#11 0#32)
  | .rdParam => .bus (busOf false 0x010#11 0#32)
  | .wrTxtype d => .bus (busOf true 0x014#11 d)
  | .rdTxtype => .bus (busOf false 0x014#11 0#32)
  | .wrPlen d => .bus (busOf true 0x018#11 d)
  | .rdPlen => .bus (busOf false 0x018#11 0#32)
  | .wrFlen d => .bus (busOf true 0x01C#11 d)
  | .rdFlen => .bus (busOf false 0x01C#11 0#32)
  | .rdDres => .bus (busOf false 0x020#11 0#32)
  | .rdRxlen => .bus (busOf false 0x024#11 0#32)
  | .rdRxcnt => .bus (busOf false 0x028#11 0#32)
  | .rdCnt => .bus (busOf false 0x02C#11 0#32)
  | .wrPbuf i d => .bus (busOf true (windowAddr 0x100#11 (i.setWidth 11)) d)
  | .rdPbuf i => .bus (busOf false (windowAddr 0x100#11 (i.setWidth 11)) 0#32)
  | .wrFbuf i d => .bus (busOf true (windowAddr 0x200#11 (i.setWidth 11)) d)
  | .rdFbuf i => .bus (busOf false (windowAddr 0x200#11 (i.setWidth 11)) 0#32)
  | .rdRxq i => .bus (busOf false (windowAddr 0x400#11 (i.setWidth 11)) 0#32)
  | .wrRo a d => .bus (busOf true a d)

/-- An instruction from the number `w` of a row that spec/opcode_table.json gives `nbits` bits in whole bytes: 32 for
a CMD row, 48 for a BUS row of 44 bits. A number with a bit above the format's width stands for nothing. -/
def decodeTableWord (nbits w : Nat) : Option Instr :=
  if nbits ≤ 32 then
    if w < 4294967296 then (decodeCmd (BitVec.ofNat 32 w)).toOption else none
  else
    if w < 17592186044416 then (decodeBus (BitVec.ofNat 44 w)).toOption else none

/-! ## The opcode table -/

/-- The table's name of each instruction. -/
def Instr.mnemonic : Instr → String
  | .nop => "NOP"
  | .encode => "ENCODE"
  | .send => "SEND"
  | .encsend => "ENCSEND"
  | .decode => "DECODE"
  | .getframes => "GETFRAMES"
  | .wrCtrl _ => "WR_CTRL"
  | .rdCtrl => "RD_CTRL"
  | .wrStatus _ => "WR_STATUS"
  | .rdStatus => "RD_STATUS"
  | .wrCmd _ => "WR_CMD"
  | .rdCmd => "RD_CMD"
  | .rdErrinfo => "RD_ERRINFO"
  | .rdParam => "RD_PARAM"
  | .wrTxtype _ => "WR_TXTYPE"
  | .rdTxtype => "RD_TXTYPE"
  | .wrPlen _ => "WR_PLEN"
  | .rdPlen => "RD_PLEN"
  | .wrFlen _ => "WR_FLEN"
  | .rdFlen => "RD_FLEN"
  | .rdDres => "RD_DRES"
  | .rdRxlen => "RD_RXLEN"
  | .rdRxcnt => "RD_RXCNT"
  | .rdCnt => "RD_CNT"
  | .wrPbuf _ _ => "WR_PBUF"
  | .rdPbuf _ => "RD_PBUF"
  | .wrFbuf _ _ => "WR_FBUF"
  | .rdFbuf _ => "RD_FBUF"
  | .rdRxq _ => "RD_RXQ"
  | .wrRo _ _ => "WR_RO"

/-- One CMD row of spec/opcode_table.json. -/
structure CmdRow where
  mnemonic : String
  mask : Word
  value : Word
  deriving DecidableEq, Repr

/-- One BUS row of spec/opcode_table.json. -/
structure BusRow where
  mnemonic : String
  mask : BusWord
  value : BusWord
  deriving DecidableEq, Repr

/-- The CMD rows, in the table's order. -/
def cmdTable : List CmdRow := [
  ⟨"NOP", 0xFFFFFFFF#32, 0x00000000#32⟩,
  ⟨"ENCODE", 0xFFFFFFFF#32, 0x00000001#32⟩,
  ⟨"SEND", 0xFFFFFFFF#32, 0x00000002#32⟩,
  ⟨"ENCSEND", 0xFFFFFFFF#32, 0x00000003#32⟩,
  ⟨"DECODE", 0xFFFFFFFF#32, 0x00000004#32⟩,
  ⟨"GETFRAMES", 0xFFFFFFFF#32, 0x00000005#32⟩]

/-- The BUS rows of the registers, in the table's order. -/
def busRegisterTable : List BusRow := [
  ⟨"WR_CTRL", 0xFFF00000000#44, 0x80000000000#44⟩,
  ⟨"RD_CTRL", 0xFFF00000000#44, 0x00000000000#44⟩,
  ⟨"WR_STATUS", 0xFFF00000000#44, 0x80400000000#44⟩,
  ⟨"RD_STATUS", 0xFFF00000000#44, 0x00400000000#44⟩,
  ⟨"WR_CMD", 0xFFF00000000#44, 0x80800000000#44⟩,
  ⟨"RD_CMD", 0xFFF00000000#44, 0x00800000000#44⟩,
  ⟨"RD_ERRINFO", 0xFFF00000000#44, 0x00C00000000#44⟩,
  ⟨"RD_PARAM", 0xFFF00000000#44, 0x01000000000#44⟩,
  ⟨"WR_TXTYPE", 0xFFF00000000#44, 0x81400000000#44⟩,
  ⟨"RD_TXTYPE", 0xFFF00000000#44, 0x01400000000#44⟩,
  ⟨"WR_PLEN", 0xFFF00000000#44, 0x81800000000#44⟩,
  ⟨"RD_PLEN", 0xFFF00000000#44, 0x01800000000#44⟩,
  ⟨"WR_FLEN", 0xFFF00000000#44, 0x81C00000000#44⟩,
  ⟨"RD_FLEN", 0xFFF00000000#44, 0x01C00000000#44⟩,
  ⟨"RD_DRES", 0xFFF00000000#44, 0x02000000000#44⟩,
  ⟨"RD_RXLEN", 0xFFF00000000#44, 0x02400000000#44⟩,
  ⟨"RD_RXCNT", 0xFFF00000000#44, 0x02800000000#44⟩,
  ⟨"RD_CNT", 0xFFF00000000#44, 0x02C00000000#44⟩]

/-- The BUS rows of the windows and of the read-only writes, in the table's order. -/
def busWindowTable : List BusRow := [
  ⟨"WR_PBUF", 0xF0300000000#44, 0x90000000000#44⟩,
  ⟨"RD_PBUF", 0xF0300000000#44, 0x10000000000#44⟩,
  ⟨"WR_FBUF", 0xF0300000000#44, 0xA0000000000#44⟩,
  ⟨"WR_FBUF", 0xFFF00000000#44, 0xB0000000000#44⟩,
  ⟨"RD_FBUF", 0xF0300000000#44, 0x20000000000#44⟩,
  ⟨"RD_FBUF", 0xFFF00000000#44, 0x30000000000#44⟩,
  ⟨"RD_RXQ", 0xC0300000000#44, 0x40000000000#44⟩,
  ⟨"WR_RO", 0xFFF00000000#44, 0x80C00000000#44⟩,
  ⟨"WR_RO", 0xFFF00000000#44, 0x81000000000#44⟩,
  ⟨"WR_RO", 0xFFF00000000#44, 0x82000000000#44⟩,
  ⟨"WR_RO", 0xFFF00000000#44, 0x82400000000#44⟩,
  ⟨"WR_RO", 0xFFF00000000#44, 0x82800000000#44⟩,
  ⟨"WR_RO", 0xFFF00000000#44, 0x82C00000000#44⟩,
  ⟨"WR_RO", 0xC0300000000#44, 0xC0000000000#44⟩]

/-- The BUS rows of the table. -/
def busTable : List BusRow := busRegisterTable ++ busWindowTable

end Sys2Proof
end

