-- ==== Sys2Proof/Config.lean ====
section
/-! DEFINITION. The implementation parameters of DFC (spec/00_scope.md R6): the fixed ones as numbers, the
instantiation parameters as a record that the machine's state carries, and the open value of `BLOCK_ID`. -/

namespace Sys2Proof

/-- `CHUNK`, the bytes of a frame that one transport write carries (R6). -/
abbrev Config.chunk : Nat := 7

/-- `MAX_PAYLOAD`, the longest payload ENCODE accepts (R6, R125). -/
abbrev Config.maxPayload : Nat := 252

/-- `MIN_DECL_LEN`, the least declared length a decoder accepts (R6). -/
abbrev Config.minDeclLen : Nat := 2

/-- `PBUF_BYTES` (R6). -/
abbrev Config.pbufBytes : Nat := 256

/-- `FBUF_BYTES` (R6). -/
abbrev Config.fbufBytes : Nat := 260

/-- `RXQ_BYTES` (R6). -/
abbrev Config.rxqBytes : Nat := 1024

/-- The default of `RB`, READ_BLOCK_BYTES (R6). -/
abbrev Config.defaultRb : Nat := 8

/-- The `BLOCK_ID` of the instance that `State.reset` stands for. The spec leaves it open, 8 bits with no default
(R6, decision D11), so it is a constant without a body: no proof sees a value of it (log entry 2). -/
opaque Config.blockId : Byte

/-- The instantiation parameters, "that the model takes as an argument" (R6). The interface fixes the type of `step`,
so the argument travels in the state; no step changes it (log entry 1). -/
structure Params where
  /-- `RB`, the bytes of one read block, legal 1..32 (R6). -/
  rb : Nat
  /-- `BLOCK_ID`, the byte before each written chunk (R6, R94). -/
  blockId : Byte
  deriving DecidableEq, Repr

/-- The legal range of `RB` (R6). -/
abbrev Params.Legal (p : Params) : Prop := 1 ≤ p.rb ∧ p.rb ≤ 32

/-- The instance with every parameter at its default, and `BLOCK_ID` open (R6). -/
def Params.standard : Params := { rb := Config.defaultRb, blockId := Config.blockId }

/-- `RAB_BYTES` = 256 + RB, the bound on the reassembly buffer (R6, R35). -/
abbrev Params.rabBytes (p : Params) : Nat := 256 + p.rb

end Sys2Proof
end

