-- ==== Sys2Proof/Machine/State.lean ====
section
/-! DEFINITION. Everything the spec gives DFC as state (spec/10_state.md, spec/70_reset_and_hazards.md R281), its
ports, the agents outside it as lists of what they will do, and the ways a step can stop. -/

namespace Sys2Proof.Machine

/-- The host-visible byte buffers as one memory keyed by host bus byte address (R34, R61): PBUF[i] at 0x100 + i, FBUF[i]
at 0x200 + i, RXQ[i] at 0x400 + i. The list is kept in the canonical form `Memory.wf`. -/
abbrev Memory := List Host.Cell

/-- `SEQ`, the sequencer state (R40). -/
inductive SeqState where
  /-- No command is in progress. -/
  | idle
  /-- A command has been accepted and has not started. -/
  | exec
  /-- A transport write of chunk K is outstanding. -/
  | txw
  /-- A transport read is outstanding. -/
  | rxw
  /-- The backoff wait after a NoDataYet block. -/
  | bkoff
  deriving DecidableEq, Repr

/-- The error kinds of a completion (R240). -/
inductive ErrKind where
  | ok
  | invalidFrameLength
  | invalidDeclaredLength
  | parityMismatch
  | timeoutExceeded
  | transportError
  | notOpen
  | cancelled
  | payloadTooLong
  | shortFrame
  | rxOverflow
  | illegalCommand
  deriving DecidableEq, Repr

/-- The host port's answer to the last bus access: `BusRead(a) -> d | BusError`, `BusWrite(a, d) -> ok | BusError`
(R12, R97). -/
inductive BusResp where
  /-- No access has been answered since reset. -/
  | idle
  /-- A write was accepted: `hb_ack` = 1, `hb_err` = 0. -/
  | ok
  /-- A read was accepted: `hb_ack` = 1, `hb_err` = 0 and `hb_rdata` = d. -/
  | data (d : Word)
  /-- A bus error: `hb_ack` = 1, `hb_err` = 1; no data is returned (R243, R64). -/
  | err
  deriving DecidableEq, Repr

/-- The TX port's input signals in the cycle with `tx_ack` = 1 (R94). -/
structure TxAck where
  /-- `tx_err` -/
  err : Bool
  /-- `tx_code[7:0]` -/
  code : Byte
  deriving DecidableEq, Repr

/-- The RX port's input signals in the cycle with `rx_ack` = 1 (R95). -/
structure RxAck where
  /-- `rx_err` -/
  err : Bool
  /-- `rx_code[7:0]` -/
  code : Byte
  /-- `rx_data[8*RB-1:0]`, byte i on bits 8i+7 : 8i. -/
  data : RxData
  deriving DecidableEq, Repr

/-- The answer of the TX transport: `Ok` or `Err(c)` (R12). -/
inductive TxAnswer where
  | ok
  | err (c : Byte)
  deriving DecidableEq, Repr

/-- The answer of the RX transport: `Block(b)` or `Err(c)` (R12). -/
inductive RxAnswer where
  | block (b : List Byte)
  | err (c : Byte)
  deriving DecidableEq, Repr

/-- One thing the host does: a bus access, or the host's loop WAIT (R102). -/
inductive HostOp where
  | access (t : BusWord)
  | wait
  deriving DecidableEq, Repr

/-- The sources of events (R7). The end of a backoff is the sequencer's step from BKOFF (R41). -/
inductive Agent where
  | host
  | sequencer
  | tx
  | rx
  | reset
  deriving DecidableEq, Repr

/-- The agents outside DFC, as plain data: what each will do, in order, and who moves when. Every interleaving of the
events of R7 is some `sched` (R247); a statement about all states is about all of them. -/
structure Env where
  /-- What the host will do, first thing first (R70). -/
  host : List HostOp
  /-- The TX transport's answers to the writes it will be handed (R94). -/
  tx : List TxAck
  /-- The RX transport's answers to the reads it will be asked for (R95). -/
  rx : List RxAck
  /-- The agents in the order in which they move; when it is empty, `nextAgent` says who moves. -/
  sched : List Agent
  /-- The blocks handed to the TX transport so far, oldest first (R75, R153). -/
  sent : List TxData
  deriving DecidableEq, Repr

/-- Where a loop of GETFRAMES stands after a frame has been consumed (R181 to R184). -/
inductive LoopStep (σ : Type) where
  /-- The command has completed. -/
  | ended (s : σ)
  /-- The loop goes round, to FILL. -/
  | again (s : σ)
  deriving DecidableEq, Repr

/-- The state of DFC and of the agents around it. -/
structure State where
  /-- The instantiation parameters (R6). -/
  params : Params
  /-- CTRL.EN (R22). -/
  en : Bool
  /-- CTRL.IE (R22). -/
  ie : Bool
  /-- CTRL.CANCEL (R22). -/
  cancel : Bool
  /-- CTRL.MAXATT (R22). -/
  maxatt : Byte
  /-- STATUS.BUSY (R23). -/
  busy : Bool
  /-- STATUS.DONE (R23). -/
  done : Bool
  /-- STATUS.TO_EMPTY (R23). -/
  toEmpty : Bool
  /-- STATUS.ERRCODE (R23). -/
  errcode : BitVec 4
  /-- CMD (R24). -/
  cmd : Word
  /-- ERRINFO (R25). -/
  errinfo : Word
  /-- TXTYPE[7:0] (R27). -/
  txtype : Byte
  /-- PLEN[7:0] (R28). -/
  plen : Byte
  /-- FLEN[8:0] (R29). -/
  flen : BitVec 9
  /-- DRES.DTYPE (R30). -/
  dtype : Byte
  /-- DRES.DLEN (R30). -/
  dlen : Byte
  /-- DRES.DPAR (R30). -/
  dpar : Byte
  /-- RXLEN[10:0] (R31). -/
  rxlen : BitVec 11
  /-- RXCNT[8:0] (R32). -/
  rxcnt : BitVec 9
  /-- CNT.RDCNT (R33). -/
  rdcnt : BitVec 16
  /-- CNT.TXCNT (R33). -/
  txcnt : BitVec 16
  /-- PBUF, FBUF and RXQ (R34). -/
  mem : Memory
  /-- RAB, the reassembly buffer (R35). -/
  rab : List Byte
  /-- SEQ (R40). -/
  seq : SeqState
  /-- K, the chunk index of the send loop (R36). -/
  k : Nat
  /-- NCH, the number of chunks of the send loop (R36). -/
  nch : Nat
  /-- ATT, the attempts of the current readOne (R36). -/
  att : Nat
  /-- FIRST (R36). -/
  first : Bool
  /-- The host port's last answer (R97). -/
  resp : BusResp
  /-- The TX port's outputs (R94): `some d` is `tx_valid` = 1 with `tx_data` = d, `none` is `tx_valid` = 0. -/
  txPort : Option TxData
  /-- `rx_req` (R95). -/
  rxReq : Bool
  /-- The agents outside DFC (R7). -/
  env : Env
  deriving DecidableEq, Repr

/-- Why the machine stops. No instruction of the table raises it in a run. -/
inductive Fault where
  /-- Raised by NEXTCHUNK when chunk K does not lie inside FBUF's 260 bytes. R36 bounds K by 37, so no run reaches it.
  Safe: the model stops where the spec has no byte to send (log entry 9). -/
  | chunkIndex
  deriving DecidableEq, Repr

/-- Why the machine has no meaning for an instruction. -/
inductive Refusal where
  /-- Raised by `exec` alone, for an instruction that has no meaning yet; no arm of this model does. Safe. -/
  | notModelled (mnemonic : String)
  deriving DecidableEq, Repr

/-- The agents before anything has happened: nothing to do, nothing sent. -/
def Env.empty : Env := { host := [], tx := [], rx := [], sched := [], sent := [] }

/-- The machine right after reset (R280, R281), with the standard instance and agents that have nothing to do. -/
def State.reset : State where
  params := Params.standard
  en := false
  ie := false
  cancel := false
  maxatt := 16#8
  busy := false
  done := false
  toEmpty := false
  errcode := 0#4
  cmd := 0#32
  errinfo := 0#32
  txtype := 0#8
  plen := 0#8
  flen := 0#9
  dtype := 0#8
  dlen := 0#8
  dpar := 0#8
  rxlen := 0#11
  rxcnt := 0#9
  rdcnt := 0#16
  txcnt := 0#16
  mem := []
  rab := []
  seq := .idle
  k := 0
  nch := 0
  att := 0
  first := false
  resp := .idle
  txPort := none
  rxReq := false
  env := Env.empty

end Sys2Proof.Machine
end

