-- ==== Sys2Proof/Machine/Operands.lean ====
section
/-! DEFINITION. The arithmetic on bytes and byte sequences that the commands share (spec/00_scope.md R9, R10), the
packing of bytes into window words and transport data (R65, R66), the buffers' places on the host bus (R61), and the
frame that the encoder builds (R91, R93). -/

namespace Sys2Proof.Machine

/-- `zext_32(v)` (R9). -/
def zext32 {n : Nat} (v : BitVec n) : Word := v.setWidth 32

/-- `sat16(n)` = min(n, 65535) (R9). -/
def sat16 (n : Nat) : BitVec 16 := BitVec.ofNat 16 (min n 65535)

/-- `roundup7(n)`, the least multiple of 7 that is at least n (R9, R93). -/
def roundup7 (n : Nat) : Nat := (n + 6) / 7 * 7

/-- `xor(B)`, from the initial value 0x00 (R10, R120). -/
def xorBytes (bs : List Byte) : Byte := bs.foldl (· ^^^ ·) 0#8

/-- `all_zero(B)`; it holds for the empty sequence (R10). -/
def allZero (bs : List Byte) : Bool := bs.all (· = 0#8)

/-- `lo | mid << 8 | hi << 16`, the shape of ERRINFO's fields (R242) and of DRES (R30). -/
def fields (lo mid hi : Word) : Word := lo ||| (mid <<< 8) ||| (hi <<< 16)

/-! ## Window words (R65) -/

/-- Byte j of a window word: bits 8j+7 : 8j. -/
def wordByte (w : Word) (j : Nat) : Byte := w.extractLsb' (8 * j) 8

/-- The four bytes of a window word, buffer byte 4i first. -/
def wordBytes (w : Word) : List Byte := [wordByte w 0, wordByte w 1, wordByte w 2, wordByte w 3]

/-- The window word with the given bytes, buffer byte 4i first: `b0 | b1 << 8 | b2 << 16 | b3 << 24` (R100). -/
def wordOf (b0 b1 b2 b3 : Byte) : Word :=
  zext32 b0 ||| (zext32 b1 <<< 8) ||| (zext32 b2 <<< 16) ||| (zext32 b3 <<< 24)

/-! ## Transport blocks (R66, R94, R95) -/

/-- The block's bytes on the data signals: byte i on bits 8i+7 : 8i. -/
def packBlock : List Byte → TxData
  | [] => 0#64
  | b :: bs => b.setWidth 64 ||| (packBlock bs <<< 8)

/-- The answer that the TX port's signals give (R94). -/
def TxAck.answer (a : TxAck) : TxAnswer := if a.err then .err a.code else .ok

/-- The `RB` bytes that the RX data signals carry: byte i on bits 8i+7 : 8i, byte 0 first (R66, R95). -/
def unpackBlock (rb : Nat) (d : RxData) : List Byte := (List.range rb).map fun i => d.extractLsb' (8 * i) 8

/-- The answer that the RX port's signals give on an instance that reads `rb` bytes: `rx_err` = 1 wins and `rx_data`
is ignored, and a block has exactly `rb` bytes (R12, R95, X3, D41). -/
def RxAck.answer (rb : Nat) (a : RxAck) : RxAnswer := if a.err then .err a.code else .block (unpackBlock rb a.data)

/-! ## Buffers on the host bus (R34, R61) -/

/-- The bus address of PBUF[0]. -/
abbrev pbufBase : Nat := 0x100

/-- The bus address of FBUF[0]. -/
abbrev fbufBase : Nat := 0x200

/-- The bus address of RXQ[0]. -/
abbrev rxqBase : Nat := 0x400

/-- The byte addresses at which a buffer byte lies (R61). -/
def windowByte (a : Nat) : Bool :=
  (pbufBase ≤ a && a < pbufBase + Config.pbufBytes)
    || (fbufBase ≤ a && a < fbufBase + Config.fbufBytes)
    || (rxqBase ≤ a && a < rxqBase + Config.rxqBytes)

/-! ## Frames (R91 to R93) -/

/-- `encLen` of a payload of n bytes: 2 + n + 1 (R13, R121). -/
def encLen (n : Nat) : Nat := n + 3

/-- The frame's bytes before the parity: type, length, payload (R91, R121). -/
def frameBody (t : Byte) (payload : List Byte) : List Byte :=
  t :: BitVec.ofNat 8 (payload.length + 1) :: payload

/-- The padded frame that the encoder builds (R121, R93): type, length, payload, parity, then zeros up to a multiple
of 7 bytes. -/
def paddedFrame (t : Byte) (payload : List Byte) : List Byte :=
  frameBody t payload ++ xorBytes (frameBody t payload)
    :: List.replicate (roundup7 (encLen payload.length) - encLen payload.length) 0#8

/-- A frame that GETFRAMES stores: 2 + L bytes with L ≥ 2 whose XOR, parity included, is 0 (R91, R120, R182). -/
def validFrame : List Byte → Bool
  | t :: l :: rest =>
    Config.minDeclLen ≤ l.toNat && rest.length = l.toNat && xorBytes (t :: l :: rest) = 0#8
  | _ => false

end Sys2Proof.Machine
end

