-- ==== Sys2Proof/Machine/Flags.lean ====
section
/-! DEFINITION. The words that reads of the registers return, the flags that follow from other state, and the codes of
the error kinds (spec/10_state.md R22 to R38, spec/60_exceptions.md R240, R249). -/

namespace Sys2Proof.Machine

/-- STATUS.ERRCODE's value for each kind; 12..15 are never produced (R240). -/
def ErrKind.code : ErrKind → BitVec 4
  | .ok => 0#4
  | .invalidFrameLength => 1#4
  | .invalidDeclaredLength => 2#4
  | .parityMismatch => 3#4
  | .timeoutExceeded => 4#4
  | .transportError => 5#4
  | .notOpen => 6#4
  | .cancelled => 7#4
  | .payloadTooLong => 8#4
  | .shortFrame => 9#4
  | .rxOverflow => 10#4
  | .illegalCommand => 11#4

/-- A flag as a word: bit 0. -/
def flagWord (b : Bool) : Word := zext32 (BitVec.ofBool b)

/-- STATUS.ERR = (ERRCODE != 0) (R23). -/
def State.errFlag (s : State) : Bool := s.errcode ≠ 0#4

/-- The interrupt output: `irq = CTRL.IE AND STATUS.DONE`, not stored (R37, R249). -/
def State.irq (s : State) : Bool := s.ie && s.done

/-- CTRL as a read returns it: `EN | IE << 1 | CANCEL << 2 | MAXATT << 8` (R215). -/
def State.ctrlWord (s : State) : Word :=
  flagWord s.en ||| (flagWord s.ie <<< 1) ||| (flagWord s.cancel <<< 2) ||| (zext32 s.maxatt <<< 8)

/-- STATUS as a read returns it: `BUSY | DONE << 1 | TO_EMPTY << 2 | ERR << 3 | ERRCODE << 8` (R217). -/
def State.statusWord (s : State) : Word :=
  flagWord s.busy ||| (flagWord s.done <<< 1) ||| (flagWord s.toEmpty <<< 2) ||| (flagWord s.errFlag <<< 3)
    ||| (zext32 s.errcode <<< 8)

/-- PARAM: `zext_32(RB) | (BLOCK_ID << 8) | (252 << 16) | (2 << 24)` (R26). -/
def State.paramWord (s : State) : Word :=
  BitVec.ofNat 32 s.params.rb ||| (zext32 s.params.blockId <<< 8)
    ||| (BitVec.ofNat 32 Config.maxPayload <<< 16) ||| (BitVec.ofNat 32 Config.minDeclLen <<< 24)

/-- DRES: DTYPE, DLEN, DPAR in bits 7:0, 15:8, 23:16 (R30). -/
def State.dresWord (s : State) : Word := fields (zext32 s.dtype) (zext32 s.dlen) (zext32 s.dpar)

/-- CNT: `RDCNT | TXCNT << 16` (R229). -/
def State.cntWord (s : State) : Word := zext32 s.rdcnt ||| (zext32 s.txcnt <<< 16)

/-- The opcode of the command in progress, CMD[7:0], as a word (R242). -/
def State.opcodeWord (s : State) : Word := zext32 (s.cmd.extractLsb' 0 8)

/-- The command in progress is GETFRAMES: its word is 0x00000005, the reserved bits included (R96, R98, R178). -/
def State.isGetframes (s : State) : Bool := s.cmd = 5#32

end Sys2Proof.Machine
end

