-- ==== Sys2Proof/Machine/Ops.lean ====
section
/-! DEFINITION. The operations that every meaning shares: the buffer memory, the host port's answers and busy gating
(spec/20_memory.md R61 to R69), command acceptance (R212), and completion (spec/60_exceptions.md R241), which DFC has
in the place of taking an exception, beside what ends it (R248, R250). -/

namespace Sys2Proof.Machine

/-- What a step or a meaning answers. -/
abbrev Result := Host.Outcome State Fault Refusal

/-! ## The buffer memory (R34, R61) -/

/-- What a byte that the list does not name reads as: 0x00, the reset value of every buffer byte (R34, R281). -/
abbrev Memory.unlisted : Byte := 0#8

/-- The byte at an address. -/
def Memory.read : Memory → Nat → Byte
  | [], _ => Memory.unlisted
  | (x, v) :: m, a => if x = a then v else Memory.read m a

/-- Store a byte, keeping the canonical form: addresses rise and no entry equals what an unlisted address reads as. -/
def Memory.write : Memory → Nat → Byte → Memory
  | [], a, b => if b = Memory.unlisted then [] else [(a, b)]
  | (x, v) :: m, a, b =>
    if a < x then (if b = Memory.unlisted then (x, v) :: m else (a, b) :: (x, v) :: m)
    else if x = a then (if b = Memory.unlisted then m else (a, b) :: m)
    else (x, v) :: Memory.write m a b

/-- Store consecutive bytes from an address. -/
def Memory.writeBytes : Memory → Nat → List Byte → Memory
  | m, _, [] => m
  | m, a, b :: bs => Memory.writeBytes (Memory.write m a b) (a + 1) bs

/-- The n bytes from an address. -/
def Memory.readBytes (m : Memory) : Nat → Nat → List Byte
  | _, 0 => []
  | a, n + 1 => Memory.read m a :: Memory.readBytes m (a + 1) n

/-- Every entry lies above `a`, the addresses rise, and no entry is zero. -/
def Memory.wfAbove : Nat → Memory → Bool
  | _, [] => true
  | a, (x, v) :: m => a < x && v ≠ Memory.unlisted && Memory.wfAbove x m

/-- The canonical form: addresses strictly rise and no entry equals what an unlisted address reads as. -/
def Memory.wf : Memory → Bool
  | [] => true
  | (x, v) :: m => v ≠ Memory.unlisted && Memory.wfAbove x m

/-- Every entry is a byte of PBUF, FBUF or RXQ: no other address of the bus holds a buffer byte (R61). -/
def Memory.mapped (m : Memory) : Bool := m.all fun c => windowByte c.1

/-- PBUF[i] (R34). -/
def State.pbuf (s : State) (i : Nat) : Byte := Memory.read s.mem (pbufBase + i)

/-- FBUF[i] (R34). -/
def State.fbuf (s : State) (i : Nat) : Byte := Memory.read s.mem (fbufBase + i)

/-- RXQ[i] (R34). -/
def State.rxq (s : State) (i : Nat) : Byte := Memory.read s.mem (rxqBase + i)

/-- PBUF[0..n-1]. -/
def State.pbufBytes (s : State) (n : Nat) : List Byte := Memory.readBytes s.mem pbufBase n

/-- FBUF[i..i+n-1]. -/
def State.fbufBytes (s : State) (i n : Nat) : List Byte := Memory.readBytes s.mem (fbufBase + i) n

/-- RXQ[0..n-1]. -/
def State.rxqBytes (s : State) (n : Nat) : List Byte := Memory.readBytes s.mem rxqBase n

/-- The window word at a bus address (R65). -/
def State.windowWord (s : State) (a : Nat) : Word :=
  wordOf (Memory.read s.mem a) (Memory.read s.mem (a + 1)) (Memory.read s.mem (a + 2)) (Memory.read s.mem (a + 3))

/-- Store bytes into the buffer memory. -/
def State.store (s : State) (a : Nat) (bs : List Byte) : State := { s with mem := Memory.writeBytes s.mem a bs }

/-! ## The host port (R62 to R69, R243) -/

/-- Answer the host's access. -/
def State.respond (s : State) (r : BusResp) : State := { s with resp := r }

/-- A bus error: `hb_err` = 1 and no other effect (R243). -/
def busError (s : State) : Result := .next (s.respond .err)

/-- An accepted read (R12). -/
def busRead (d : Word) (s : State) : Result := .next (s.respond (.data d))

/-- An accepted write that leaves the state `s` (R12). -/
def busWritten (s : State) : Result := .next (s.respond .ok)

/-- An access that is a bus error while STATUS.BUSY = 1 (R69). -/
def whenIdle (s : State) (r : Result) : Result := if s.busy then busError s else r

/-! ## Acceptance and completion (R212, R241) -/

/-- Command acceptance: CMD takes the word, BUSY is set, the record of the last completion is cleared, and the
sequencer's next step starts the command (R212). It is also how the host ends its handling of a completion (R250). -/
def accept (w : Word) (s : State) : State :=
  { s with
    cmd := w, busy := true, done := false, toEmpty := false, errcode := 0#4, errinfo := 0#32, seq := .exec }

/-- Completion, `finish(E, info)` (R241), with GETFRAMES's additional effects (R185). It takes the place of an
exception's entry: ERRCODE and ERRINFO are what it saves, and control goes nowhere (R248). -/
def finish (e : ErrKind) (info : Word) (s : State) : State :=
  { s with
    errinfo := info
    errcode := e.code
    toEmpty := if e = .timeoutExceeded then s.first else s.toEmpty
    rab := if s.isGetframes then [] else s.rab
    rxlen := if s.isGetframes ∧ e ≠ .ok then 0#11 else s.rxlen
    rxcnt := if s.isGetframes ∧ e ≠ .ok then 0#9 else s.rxcnt
    cancel := false
    busy := false
    done := true
    seq := .idle }

/-- A completion as the answer of a step. -/
def finished (e : ErrKind) (info : Word) (s : State) : Result := .next (finish e info s)

/-- Reset: every piece of DFC's state takes its reset value in one step, and a transaction outstanding is abandoned
(R280, R281). The instance stays what it is, and so does what the outside agents will do. -/
def hardReset (s : State) : State := { State.reset with params := s.params, env := s.env }

end Sys2Proof.Machine
end

