-- ==== Sys2Proof/Machine/Bus.lean ====
section
/-! DEFINITION. The host bus operations (spec/43_control.md R212 to R235). -/

namespace Sys2Proof.Machine

/-! ## Control registers -/

/-- The new MAXATT: a write of 0 stores 1 (R22, R214). -/
def legalMaxatt (d : Word) : Byte := if d.extractLsb' 8 8 = 0#8 then 1#8 else d.extractLsb' 8 8

/-- WR_CTRL (R214): idle it writes EN, IE and MAXATT, busy it writes IE and may set CANCEL. -/
def execWrCtrl (d : Word) (s : State) : Result :=
  busWritten
    { s with
      ie := d.getLsbD 1
      en := if s.busy then s.en else d.getLsbD 0
      maxatt := if s.busy then s.maxatt else legalMaxatt d
      cancel := s.cancel || (s.busy && d.getLsbD 2) }

/-- RD_CTRL (R215). -/
def execRdCtrl (s : State) : Result := busRead s.ctrlWord s

/-- WR_STATUS (R216): write 1 to clear DONE. -/
def execWrStatus (d : Word) (s : State) : Result := busWritten { s with done := s.done && !d.getLsbD 1 }

/-- RD_STATUS (R217). -/
def execRdStatus (s : State) : Result := busRead s.statusWord s

/-- WR_CMD (R212): acceptance; a bus error while busy. -/
def execWrCmd (d : Word) (s : State) : Result := whenIdle s (busWritten (accept d s))

/-- RD_CMD (R213). -/
def execRdCmd (s : State) : Result := busRead s.cmd s

/-- RD_ERRINFO (R218). -/
def execRdErrinfo (s : State) : Result := busRead s.errinfo s

/-- RD_PARAM (R219). -/
def execRdParam (s : State) : Result := busRead s.paramWord s

/-- RD_CNT (R229). -/
def execRdCnt (s : State) : Result := busRead s.cntWord s

/-! ## Operand and result registers -/

/-- WR_TXTYPE (R220). -/
def execWrTxtype (d : Word) (s : State) : Result :=
  whenIdle s (busWritten { s with txtype := d.extractLsb' 0 8 })

/-- RD_TXTYPE (R221). -/
def execRdTxtype (s : State) : Result := whenIdle s (busRead (zext32 s.txtype) s)

/-- WR_PLEN (R222). -/
def execWrPlen (d : Word) (s : State) : Result :=
  whenIdle s (busWritten { s with plen := d.extractLsb' 0 8 })

/-- RD_PLEN (R223). -/
def execRdPlen (s : State) : Result := whenIdle s (busRead (zext32 s.plen) s)

/-- WR_FLEN (R224): a value above 260 is a bus error. -/
def execWrFlen (d : Word) (s : State) : Result :=
  whenIdle s
    (if d.toNat ≤ Config.fbufBytes then busWritten { s with flen := d.extractLsb' 0 9 } else busError s)

/-- RD_FLEN (R225). -/
def execRdFlen (s : State) : Result := whenIdle s (busRead (zext32 s.flen) s)

/-- RD_DRES (R226). -/
def execRdDres (s : State) : Result := whenIdle s (busRead s.dresWord s)

/-- RD_RXLEN (R227). -/
def execRdRxlen (s : State) : Result := whenIdle s (busRead (zext32 s.rxlen) s)

/-- RD_RXCNT (R228). -/
def execRdRxcnt (s : State) : Result := whenIdle s (busRead (zext32 s.rxcnt) s)

/-! ## Buffer windows -/

/-- A window write: the four bytes of the word, byte 4i from bits 7:0 (R65, R230, R232). -/
def windowWrite (a : Nat) (d : Word) (s : State) : Result := whenIdle s (busWritten (s.store a (wordBytes d)))

/-- A window read (R65, R231, R233, R234). -/
def windowRead (a : Nat) (s : State) : Result := whenIdle s (busRead (s.windowWord a) s)

/-- WR_PBUF (R230). -/
def execWrPbuf (i : BitVec 6) (d : Word) (s : State) : Result := windowWrite (pbufBase + 4 * i.toNat) d s

/-- RD_PBUF (R231). -/
def execRdPbuf (i : BitVec 6) (s : State) : Result := windowRead (pbufBase + 4 * i.toNat) s

/-- WR_FBUF (R232). An index above 64 has no encoding; its address would be reserved, a bus error (R64). -/
def execWrFbuf (i : BitVec 7) (d : Word) (s : State) : Result :=
  if i.toNat ≤ 64 then windowWrite (fbufBase + 4 * i.toNat) d s else busError s

/-- RD_FBUF (R233); an index above 64 as in WR_FBUF. -/
def execRdFbuf (i : BitVec 7) (s : State) : Result :=
  if i.toNat ≤ 64 then windowRead (fbufBase + 4 * i.toNat) s else busError s

/-- RD_RXQ (R234). -/
def execRdRxq (i : BitVec 8) (s : State) : Result := windowRead (rxqBase + 4 * i.toNat) s

/-- WR_RO (R235): the operation's own effect is a bus error, busy or idle, at every read-only location. -/
def execWrRo (_a : Addr) (_d : Word) (s : State) : Result := busError s

end Sys2Proof.Machine
end

