-- ==== Sys2Proof/Machine/Codec.lean ====
section
/-! DEFINITION. The frame codec commands, ENCODE and DECODE (spec/40_codec.md R121, R122). -/

namespace Sys2Proof.Machine

/-- PLEN > 252: the payload is longer than the encoder accepts (R121, R125). -/
def payloadTooLong (s : State) : Bool := Config.maxPayload < s.plen.toNat

/-- The body of ENCODE, from "encLen <- n + 3" to "FLEN <- pad": the padded frame goes to FBUF from byte 0 and its size
to FLEN; the bytes of FBUF after it keep their values (R121). -/
def encodeFrame (s : State) : State :=
  { s.store fbufBase (paddedFrame s.txtype (s.pbufBytes s.plen.toNat)) with
    flen := BitVec.ofNat 9 (roundup7 (encLen s.plen.toNat)) }

/-- ENCODE (R121). -/
def execEncode (s : State) : Result :=
  if payloadTooLong s then finished .payloadTooLong (zext32 s.plen) s
  else finished .ok 0#32 (encodeFrame s)

/-- The declared length of the frame in FBUF, its byte 1 (R92, R122). -/
def declaredLen (s : State) : Nat := (s.fbuf 1).toNat

/-- The XOR that DECODE recomputes over type, length and payload (R122). -/
def decodeParity (s : State) : Byte := xorBytes (s.fbufBytes 0 (declaredLen s + 1))

/-- DECODE, its checks in the order of R122 and R246. On OK it writes DRES; on an error it writes nothing but the
completion record. -/
def execDecode (s : State) : Result :=
  if s.flen.toNat < 2 then finished .shortFrame (zext32 s.flen) s
  else if declaredLen s < Config.minDeclLen then finished .invalidDeclaredLength (zext32 (s.fbuf 1)) s
  else if s.flen.toNat < 2 + declaredLen s then finished .shortFrame (zext32 s.flen) s
  else if decodeParity s ≠ s.fbuf (1 + declaredLen s) then
    finished .parityMismatch (fields (zext32 (s.fbuf (1 + declaredLen s))) (zext32 (decodeParity s)) 0#32) s
  else
    finished .ok 0#32 { s with dtype := s.fbuf 0, dlen := s.fbuf 1, dpar := s.fbuf (1 + declaredLen s) }

end Sys2Proof.Machine
end

