-- ==== Sys2Proof/Machine/Control.lean ====
section
/-! DEFINITION. NOP and the completion of an illegal command word (spec/43_control.md R210, R211). -/

namespace Sys2Proof.Machine

/-- NOP (R210). -/
def execNop (s : State) : Result := finished .ok 0#32 s

/-- A CMD word that R96 does not list completes with IllegalCommand and has no other effect (R98, R211). -/
def illegalCommand (s : State) : Result := finished .illegalCommand s.cmd s

end Sys2Proof.Machine
end

