-- ==== Sys2Proof/Machine/Receive.lean ====
section
/-! DEFINITION. The receive path: the retry-driven reader readOne, the reassembly loop, and GETFRAMES
(spec/42_receive.md R170 to R186). -/

namespace Sys2Proof.Machine

/-- An ERRINFO record of GETFRAMES, whose field 24:16 is RXCNT before it is cleared (R242, R185). -/
def rxInfo (lo mid : Word) (s : State) : Word := fields lo mid (zext32 s.rxcnt)

/-! ## readOne (R170 to R177) -/

/-- ATTEMPT (R171): the cancellation check, then one transport read, counted in ATT and CNT.RDCNT. -/
def attempt (s : State) : State :=
  if s.cancel then finish .cancelled (rxInfo 0#32 5#32 s) s
  else { s with att := s.att + 1, rdcnt := sat16 (s.rdcnt.toNat + 1), rxReq := true, seq := .rxw }

/-- READONE: `ATT <- 0; goto ATTEMPT` (R170, R179). -/
def readOne (s : State) : State := attempt { s with att := 0 }

/-! ## The reassembly loop (R179 to R184) -/

/-- The declared length in RAB, its byte 1; it is looked at only when RAB holds 2 bytes (R179). -/
def rabLen (s : State) : Nat := (s.rab.getD 1 0#8).toNat

/-- RAB's first 2 + L bytes, the frame that CONSUME takes (R181). -/
def rabFrame (s : State) : List Byte := s.rab.take (2 + rabLen s)

/-- The XOR over the frame's type, length and payload, `xor(f[0..L])` (R182). -/
def rabParity (s : State) : Byte := xorBytes (s.rab.take (1 + rabLen s))

/-- The frame's parity byte, `f[1+L]` (R182). -/
def rabParityByte (s : State) : Byte := s.rab.getD (1 + rabLen s) 0#8

/-- `RAB <- RAB[2+L ..]` (R181). -/
def dropFrame (s : State) : State := { s with rab := s.rab.drop (2 + rabLen s) }

/-- The frame does not fit in RXQ after the RXLEN bytes that are there (R183). -/
def rxqFull (s : State) : Bool := Config.rxqBytes < s.rxlen.toNat + 2 + rabLen s

/-- The append to RXQ, RXLEN and RXCNT (R183), of the frame at RAB's front, which is taken off RAB (R181). -/
def appendFrame (s : State) : State :=
  { (s.store (rxqBase + s.rxlen.toNat) (rabFrame s)) with
    rab := s.rab.drop (2 + rabLen s)
    rxlen := BitVec.ofNat 11 (s.rxlen.toNat + 2 + rabLen s)
    rxcnt := s.rxcnt + 1#9 }

/-- CONSUME (R181), with the parity check (R182), the append (R183) and the end of the loop (R184). -/
def consume (s : State) : LoopStep State :=
  if rabParity s ≠ rabParityByte s then
    .ended (finish .parityMismatch (rxInfo (zext32 (rabParityByte s)) (zext32 (rabParity s)) s) (dropFrame s))
  else if rxqFull s then .ended (finish .rxOverflow (rxInfo (zext32 s.rxlen) 0#32 s) (dropFrame s))
  else if allZero (appendFrame s).rab then .ended (finish .ok 0#32 (appendFrame s))
  else .again (appendFrame s)

/-- FILL with a bound on the frames it may still take (R179, R180). Every frame takes at least 2 bytes off RAB, so
the size of RAB is bound enough; with an empty RAB, FILL goes to READONE. -/
def fillWithin : Nat → State → State
  | 0, s => readOne s
  | n + 1, s =>
    if s.rab.length < 2 then readOne s
    else if rabLen s < Config.minDeclLen then
      finish .invalidDeclaredLength (rxInfo (zext32 (s.rab.getD 1 0#8)) 0#32 s) s
    else if s.rab.length < 2 + rabLen s then readOne s
    else
      match consume s with
      | .ended s' => s'
      | .again s' => fillWithin n s'

/-- FILL (R179). -/
def fill (s : State) : State := fillWithin s.rab.length s

/-! ## The RX answer step (R172 to R175) -/

/-- An all-zero block, NoDataYet: discarded; the retry budget is spent, or the backoff begins (R174, R175). -/
def noDataYet (s : State) : State :=
  if s.maxatt.toNat ≤ s.att then finish .timeoutExceeded (rxInfo (BitVec.ofNat 32 s.att) 5#32 s) s
  else { s with seq := .bkoff }

/-- A block with a non-zero byte: all its bytes are appended, and FILL follows in the same step (R173). -/
def appendBlock (b : List Byte) (s : State) : State := fill { s with rab := s.rab ++ b, first := false }

/-- The RX answer step from RXW: `rx_req` drops (R95); an error ends the command and is not retried (R172). -/
def rxAnswered (a : RxAnswer) (s : State) : Result :=
  match a with
  | .err c => finished .transportError (rxInfo (zext32 c) 5#32 s) { s with rxReq := false }
  | .block b =>
    if allZero b then .next (noDataYet { s with rxReq := false })
    else .next (appendBlock b { s with rxReq := false })

/-- An RX answer is taken only in RXW; one that comes at any other time is ignored (R42, X2). -/
def rxAnswer (a : RxAck) (s : State) : Result :=
  if s.seq = .rxw then rxAnswered (a.answer s.params.rb) s else .next s

/-! ## GETFRAMES -/

/-- The state in which GETFRAMES starts: the counter, RAB and the result list are emptied (R178). -/
def getframesStart (s : State) : State :=
  { s with rdcnt := 0#16, rab := [], rxlen := 0#11, rxcnt := 0#9, first := true }

/-- GETFRAMES (R178). -/
def execGetframes (s : State) : Result :=
  if !s.en then finished .notOpen (fields 0#32 5#32 0#32) (getframesStart s)
  else .next (fill (getframesStart s))

end Sys2Proof.Machine
end

