-- ==== Sys2Proof/Machine/Send.lean ====
section
/-! DEFINITION. The send path: the send loop and its three entry points, SEND and ENCSEND (spec/41_send.md R150 to
R153). -/

namespace Sys2Proof.Machine

/-- The block for chunk k: `[BLOCK_ID] ++ FBUF[7k .. 7k+6]` on the TX port's data signals (R94, R150). -/
def txBlock (s : State) (k : Nat) : TxData :=
  packBlock (s.params.blockId :: s.fbufBytes (Config.chunk * k) Config.chunk)

/-- `TransportWrite`: raise `tx_valid` with the block of chunk K and wait in TXW (R12, R94, R150). The block is handed
to the TX transport, and nothing takes it back (R153). -/
def issueChunk (s : State) : State :=
  { s with
    txPort := some (txBlock s s.k)
    seq := .txw
    env := { s.env with sent := s.env.sent ++ [txBlock s s.k] } }

/-- NEXTCHUNK (R150). The last branch is log entry 9. -/
def nextChunk (s : State) : Result :=
  if s.k = s.nch then finished .ok 0#32 s
  else if s.cancel then finished .cancelled (fields 0#32 s.opcodeWord (BitVec.ofNat 32 s.k)) s
  else if Config.chunk * s.k + Config.chunk ≤ Config.fbufBytes then .next (issueChunk s)
  else .fault .chunkIndex

/-- SENDSTART (R150). -/
def sendStart (s : State) : Result :=
  if !s.en then finished .notOpen (fields 0#32 s.opcodeWord 0#32) s
  else if s.flen.toNat % Config.chunk ≠ 0 then finished .invalidFrameLength (zext32 s.flen) s
  else nextChunk { s with nch := s.flen.toNat / Config.chunk, k := 0 }

/-- The TX answer step from TXW (R150): `tx_valid` drops (R94), and on Ok the next chunk follows in the same step. -/
def txAnswered (a : TxAnswer) (s : State) : Result :=
  match a with
  | .ok => nextChunk { s with txPort := none, txcnt := sat16 (s.txcnt.toNat + 1), k := s.k + 1 }
  | .err c =>
    finished .transportError (fields (zext32 c) s.opcodeWord (BitVec.ofNat 32 s.k)) { s with txPort := none }

/-- A TX answer is taken only in TXW; one that comes at any other time is ignored (R42, X2). -/
def txAnswer (a : TxAck) (s : State) : Result :=
  if s.seq = .txw then txAnswered a.answer s else .next s

/-- SEND (R151). -/
def execSend (s : State) : Result := sendStart { s with txcnt := 0#16 }

/-- ENCSEND (R152): the encode's refusal comes first, and its writes survive an error of the send. -/
def execEncsend (s : State) : Result :=
  if payloadTooLong s then finished .payloadTooLong (zext32 s.plen) { s with txcnt := 0#16 }
  else sendStart (encodeFrame { s with txcnt := 0#16 })

end Sys2Proof.Machine
end

