-- ==== Sys2Proof/Machine/Dispatch.lean ====
section
/-! DEFINITION. The one match from instructions to their meanings: commands run in the internal step from EXEC (R41),
bus operations in the host's access (R7). -/

namespace Sys2Proof.Machine

/-- The meaning of each instruction. -/
def exec (i : Instr) (s : State) : Host.Outcome State Fault Refusal :=
  match i with
  | .nop => Sys2Proof.Machine.execNop s
  | .encode => Sys2Proof.Machine.execEncode s
  | .send => Sys2Proof.Machine.execSend s
  | .encsend => Sys2Proof.Machine.execEncsend s
  | .decode => Sys2Proof.Machine.execDecode s
  | .getframes => Sys2Proof.Machine.execGetframes s
  | .wrCtrl d => Sys2Proof.Machine.execWrCtrl d s
  | .rdCtrl => Sys2Proof.Machine.execRdCtrl s
  | .wrStatus d => Sys2Proof.Machine.execWrStatus d s
  | .rdStatus => Sys2Proof.Machine.execRdStatus s
  | .wrCmd d => Sys2Proof.Machine.execWrCmd d s
  | .rdCmd => Sys2Proof.Machine.execRdCmd s
  | .rdErrinfo => Sys2Proof.Machine.execRdErrinfo s
  | .rdParam => Sys2Proof.Machine.execRdParam s
  | .wrTxtype d => Sys2Proof.Machine.execWrTxtype d s
  | .rdTxtype => Sys2Proof.Machine.execRdTxtype s
  | .wrPlen d => Sys2Proof.Machine.execWrPlen d s
  | .rdPlen => Sys2Proof.Machine.execRdPlen s
  | .wrFlen d => Sys2Proof.Machine.execWrFlen d s
  | .rdFlen => Sys2Proof.Machine.execRdFlen s
  | .rdDres => Sys2Proof.Machine.execRdDres s
  | .rdRxlen => Sys2Proof.Machine.execRdRxlen s
  | .rdRxcnt => Sys2Proof.Machine.execRdRxcnt s
  | .rdCnt => Sys2Proof.Machine.execRdCnt s
  | .wrPbuf n d => Sys2Proof.Machine.execWrPbuf n d s
  | .rdPbuf n => Sys2Proof.Machine.execRdPbuf n s
  | .wrFbuf n d => Sys2Proof.Machine.execWrFbuf n d s
  | .rdFbuf n => Sys2Proof.Machine.execRdFbuf n s
  | .rdRxq n => Sys2Proof.Machine.execRdRxq n s
  | .wrRo a d => Sys2Proof.Machine.execWrRo a d s

end Sys2Proof.Machine
end

