-- ==== Sys2Proof/Machine/Agents.lean ====
section
/-! DEFINITION. The moves of the agents of spec/00_scope.md R7: the host's bus accesses and its WAIT loop, the
sequencer's internal step, the transports' answers, reset; and who moves next. -/

namespace Sys2Proof.Machine

/-! ## The host (R60 to R70, R102) -/

/-- One host bus access: the operation that its fields name, or a bus error where R97 lists none (R63, R64). -/
def busAccess (t : BusWord) (s : State) : Result :=
  match decodeBus t with
  | .ok i => exec i s
  | .error _ => busError s

/-- The state with the host's next operation taken off its list. -/
def State.hostTakes (s : State) : State := { s with env := { s.env with host := s.env.host.tail } }

/-- The host's move. WAIT is a loop of RD STATUS that ends when the value read has BUSY = 0 (R102, R287). -/
def hostMove (s : State) : Result :=
  match s.env.host with
  | [] => .next s
  | .access t :: _ => busAccess t s.hostTakes
  | .wait :: _ => if s.busy then exec .rdStatus s else exec .rdStatus s.hostTakes

/-! ## The sequencer (R41) -/

/-- The start of the command that CMD encodes (R41). -/
def startCommand (s : State) : Result :=
  match decodeCmd s.cmd with
  | .ok i => exec i s
  | .error _ => illegalCommand s

/-- The sequencer's internal step. It is enabled in EXEC and in BKOFF, where it is the end of the backoff wait
(R41, R177); in the other states there is no step to take (R257). -/
def internalStep (s : State) : Result :=
  match s.seq with
  | .exec => startCommand s
  | .bkoff => .next (attempt s)
  | .idle => .next s
  | .txw => .next s
  | .rxw => .next s

/-! ## The transports (R42) -/

/-- The TX transport's move: it gives its next answer. With none left it stays silent (R287). -/
def txMove (s : State) : Result :=
  match s.env.tx with
  | [] => .next s
  | a :: rest => txAnswer a { s with env := { s.env with tx := rest } }

/-- The RX transport's move. -/
def rxMove (s : State) : Result :=
  match s.env.rx with
  | [] => .next s
  | a :: rest => rxAnswer a { s with env := { s.env with rx := rest } }

/-! ## Who moves (R7) -/

/-- One agent's move. -/
def move (g : Agent) (s : State) : Result :=
  match g with
  | .host => hostMove s
  | .sequencer => internalStep s
  | .tx => txMove s
  | .rx => rxMove s
  | .reset => .next (hardReset s)

/-- Who moves when the schedule says nothing: an enabled internal step first (R293's fairness), then the transport
that owes an answer and has one, then the host (log entry 4). -/
def nextAgent (s : State) : Agent :=
  match s.seq with
  | .exec => .sequencer
  | .bkoff => .sequencer
  | .txw => if s.env.tx.isEmpty then .host else .tx
  | .rxw => if s.env.rx.isEmpty then .host else .rx
  | .idle => .host

/-- The agent that moves: the schedule's first, or `nextAgent`. -/
def mover (s : State) : Agent :=
  match s.env.sched with
  | [] => nextAgent s
  | g :: _ => g

/-- The state with the schedule's first entry taken off. -/
def State.scheduled (s : State) : State := { s with env := { s.env with sched := s.env.sched.tail } }

/-! ## Programs placed from outside -/

/-- Put a bus transaction where the host takes its next operation, and let the host move next. -/
def withAccess (t : BusWord) (s : State) : State :=
  { s with env := { s.env with host := .access t :: s.env.host, sched := .host :: s.env.sched } }

/-- Put a command word into CMD as its acceptance does (R212), and let the sequencer move next. -/
def withCommand (w : Word) (s : State) : State :=
  { accept w s with env := { s.env with sched := .sequencer :: s.env.sched } }

end Sys2Proof.Machine
end

