-- ==== Sys2Proof/Machine/Step.lean ====
section
/-! DEFINITION. One step of the machine: one event of spec/00_scope.md R7. -/

namespace Sys2Proof.Machine

/-- One step: the agent whose turn it is makes its move (R7, R247). -/
def step (s : State) : Host.Outcome State Fault Refusal := move (mover s) s.scheduled

/-- `s` with the instruction of an opcode-table row, numbered as the table numbers it, where the next step takes it:
a CMD word accepted into CMD with the sequencer to move, or a bus transaction at the head of the host's list with the
host to move (log entry 3). -/
def State.withFetchWord (s : State) (nbits w : Nat) : State :=
  if nbits ≤ 32 then withCommand (BitVec.ofNat 32 w) s else withAccess (BitVec.ofNat 44 w) s

end Sys2Proof.Machine
end

