-- ==== Sys2Proof/Safety.lean ====
section
/-! DEFINITION. What the spec says of every state that a run reaches, as predicates on one state: the ranges of the
registers, which flags can stand together, and what each sequencer state means (spec/10_state.md R22 to R43,
spec/42_receive.md R174 to R186). -/

namespace Sys2Proof.Machine

/-- CTRL: MAXATT is 1..255, because a write of 0 stores 1, and CANCEL is pending only while a command runs (R22). -/
abbrev CtrlLegal (s : State) : Prop := s.maxatt ≠ 0#8 ∧ (s.cancel = true → s.busy = true)

/-- STATUS and ERRINFO: BUSY = 1 exactly when SEQ is not IDLE (R40); acceptance cleared the last record, so nothing is
recorded while BUSY (R212, R218); ERRCODE 12..15 are never produced (R240); TO_EMPTY is set by a TimeoutExceeded
only (R38). -/
abbrev StatusLegal (s : State) : Prop :=
  (s.busy = true ↔ s.seq ≠ .idle)
    ∧ (s.busy = true → s.done = false ∧ s.toEmpty = false ∧ s.errcode = 0#4 ∧ s.errinfo = 0#32)
    ∧ s.errcode.toNat ≤ 11
    ∧ (s.toEmpty = true → s.errcode = ErrKind.timeoutExceeded.code)

/-- The buffers: the memory is in its canonical form and holds buffer bytes only, FLEN is 0..260 (R29), RXLEN 0..1024
(R31), and RXCNT is at most RXLEN / 4, so 0..256 (R32). -/
abbrev BuffersLegal (s : State) : Prop :=
  Memory.wf s.mem = true ∧ Memory.mapped s.mem = true ∧ s.flen.toNat ≤ Config.fbufBytes
    ∧ s.rxlen.toNat ≤ Config.rxqBytes ∧ 4 * s.rxcnt.toNat ≤ s.rxlen.toNat

/-- FILL needs more bytes than RAB holds (R179). -/
abbrev needsMore (s : State) : Prop :=
  s.rab.length < 2 ∨ (Config.minDeclLen ≤ rabLen s ∧ s.rab.length < 2 + rabLen s)

/-- RAB is empty outside a GETFRAMES (R35), and GETFRAMES waits only when it needs more bytes (R179). -/
abbrev RabLegal (s : State) : Prop :=
  if s.seq = .rxw ∨ s.seq = .bkoff then needsMore s else s.rab = []

/-- The send loop: K and NCH are 0..37 (R36). In TXW a SEND or ENCSEND of FLEN / 7 chunks has chunk K outstanding, and
`tx_data` holds its block; in every other state `tx_valid` = 0 (R94, R150). -/
abbrev SendLegal (s : State) : Prop :=
  s.k ≤ s.nch ∧ s.nch ≤ 37
    ∧ (if s.seq = .txw then
        (s.cmd = 2#32 ∨ s.cmd = 3#32) ∧ s.en = true ∧ s.k < s.nch ∧ Config.chunk * s.nch = s.flen.toNat
          ∧ s.txPort = some (txBlock s s.k)
      else s.txPort = none)

/-- The reader: `rx_req` = 1 exactly in RXW (R95, R281); a read or a backoff belongs to a GETFRAMES with an open
session, whose attempts are within MAXATT (R174). -/
abbrev ReceiveLegal (s : State) : Prop :=
  (s.rxReq = true ↔ s.seq = .rxw)
    ∧ s.att ≤ 255
    ∧ (s.seq = .rxw ∨ s.seq = .bkoff → s.cmd = 5#32 ∧ s.en = true)
    ∧ (s.seq = .rxw → 1 ≤ s.att ∧ s.att ≤ s.maxatt.toNat)
    ∧ (s.seq = .bkoff → 1 ≤ s.att ∧ s.att < s.maxatt.toNat)

/-- The result list of the last GETFRAMES: at least one frame after OK, none after an error (R178, R185). -/
abbrev ResultLegal (s : State) : Prop :=
  s.seq = .idle → s.cmd = 5#32 →
    (s.errcode = 0#4 → 1 ≤ s.rxcnt.toNat) ∧ (s.errcode ≠ 0#4 → s.rxlen = 0#11 ∧ s.rxcnt = 0#9)

/-- The invariant of every run. -/
structure RunInv (s : State) : Prop where
  params : s.params.Legal
  ctrl : CtrlLegal s
  status : StatusLegal s
  buffers : BuffersLegal s
  rab : RabLegal s
  send : SendLegal s
  receive : ReceiveLegal s
  result : ResultLegal s

/-- RXQ[0..RXLEN-1] is RXCNT whole frames back to back, each with a declared length of at least 2 and a parity that
agrees (R34, R178, R182). -/
def RxqHoldsFrames (s : State) : Prop :=
  ∃ fs : List (List Byte),
    (∀ f ∈ fs, validFrame f = true) ∧ fs.length = s.rxcnt.toNat ∧ fs.flatten = s.rxqBytes s.rxlen.toNat

end Sys2Proof.Machine
end

