-- ==== Sys2Proof/Certificates/Slice0/Obligations.lean ====
section
/-! DEFINITION. The statements for the provers, from the numbered rules of spec/. -/

open Sys2Proof Sys2Proof.Machine

/-! ## Vocabulary -/

/-- The state after a completion with ERRCODE `e` and ERRINFO `info` of a command that is not GETFRAMES and did not
time out, R241 line by line. -/
def Sys2Proof.completed (e : BitVec 4) (info : Word) (s : State) : State :=
  { s with errinfo := info, errcode := e, cancel := false, busy := false, done := true, seq := .idle }

/-- The state after a GETFRAMES completed with the error `e`: R241 and R185. -/
def Sys2Proof.rxFailed (e : BitVec 4) (info : Word) (s : State) : State :=
  { completed e info s with rab := [], rxlen := 0#11, rxcnt := 0#9 }

/-- A 32-bit record with the fields `[7:0]`, `[15:8]` and `[24:16]`, all other bits 0 (R242). -/
def Sys2Proof.hasFields (info : Word) (lo mid : Byte) (hi : BitVec 9) : Prop :=
  info.extractLsb' 0 8 = lo ∧ info.extractLsb' 8 8 = mid ∧ info.extractLsb' 16 9 = hi ∧ info.extractLsb' 25 7 = 0#7

/-- The TX data whose byte 0 is BLOCK_ID and whose bytes 1..7 are chunk k of FBUF (R94). -/
def Sys2Proof.isBlock (s : State) (k : Nat) (b : TxData) : Prop :=
  b.extractLsb' 0 8 = s.params.blockId ∧ ∀ i < 7, b.extractLsb' (8 * (i + 1)) 8 = s.fbuf (7 * k + i)

/-- The state once the scheduled host access has been taken from the agents' lists. -/
def Sys2Proof.afterHost (s : State) : State :=
  { s with env := { s.env with host := s.env.host.tail, sched := s.env.sched.tail } }

/-- The state once the scheduled internal step has been taken from the schedule. -/
def Sys2Proof.afterSeq (s : State) : State := { s with env := { s.env with sched := s.env.sched.tail } }

/-- The state once the TX transport's answer has been taken and `tx_valid` has dropped. -/
def Sys2Proof.afterTx (s : State) : State :=
  { s with txPort := none, env := { s.env with tx := s.env.tx.tail, sched := s.env.sched.tail } }

/-- The state once the RX transport's answer has been taken and `rx_req` has dropped. -/
def Sys2Proof.afterRx (s : State) : State :=
  { s with rxReq := false, env := { s.env with rx := s.env.rx.tail, sched := s.env.sched.tail } }

/-- The next event is the host access `t`. -/
def Sys2Proof.hostIssues (s : State) (t : BusWord) : Prop := mover s = .host ∧ s.env.host.head? = some (.access t)

/-- The next event is the TX transport's answer `a` to the outstanding write. -/
def Sys2Proof.txAnswers (s : State) (a : TxAck) : Prop :=
  mover s = .tx ∧ s.seq = .txw ∧ s.env.tx.head? = some a

/-- The next event is the RX transport's answer `a` to the outstanding read of a GETFRAMES. -/
def Sys2Proof.rxAnswers (s : State) (a : RxAck) : Prop :=
  mover s = .rx ∧ s.seq = .rxw ∧ s.cmd = 5#32 ∧ s.env.rx.head? = some a

/-- The bytes `b` are what the RX data signals carry on an instance that reads `rb` bytes: `rb` of them, byte i on bits
8i+7 : 8i (R66, R95). -/
def Sys2Proof.carries (rb : Nat) (d : RxData) (b : List Byte) : Prop :=
  b.length = rb ∧ ∀ i, (h : i < b.length) → b[i] = d.extractLsb' (8 * i) 8

/-- The next event is the RX transport's answer with the block `b`, which is not all zero. -/
def Sys2Proof.dataArrives (s : State) (b : List Byte) : Prop :=
  ∃ c d, rxAnswers s ⟨false, c, d⟩ ∧ carries s.params.rb d b ∧ ∃ x ∈ b, x ≠ 0#8

/-- The declared length in a byte sequence, its byte 1 (R92). -/
def Sys2Proof.lenOf (r : List Byte) : Nat := (r.getD 1 0#8).toNat

/-- RXQ and the other buffers after the bytes `f` have been stored at RXLEN, byte by byte (R183). -/
def Sys2Proof.storesFrame (s t : State) (f : List Byte) : Prop :=
  (∀ i, (h : i < f.length) → t.rxq (s.rxlen.toNat + i) = f[i])
    ∧ ∀ a, a < 0x400 + s.rxlen.toNat ∨ 0x400 + s.rxlen.toNat + f.length ≤ a →
        Memory.read t.mem a = Memory.read s.mem a

/-- A block comes after which RAB is the valid frames `fs` back to back and then `rest`. The frames fit in RXQ, and if
there are any, `rest` has a non-zero byte, so that the loop goes round after each of them (R184). -/
def Sys2Proof.framesThenRest (s : State) (b : List Byte) (fs : List (List Byte)) (rest : List Byte) : Prop :=
  dataArrives s b ∧ s.rab ++ b = fs.flatten ++ rest ∧ (∀ f ∈ fs, validFrame f = true)
    ∧ s.rxlen.toNat + fs.flatten.length ≤ 1024 ∧ (fs ≠ [] → Memory.wf s.mem = true ∧ ∃ x ∈ rest, x ≠ 0#8)

/-- The state `u` in which FILL looks at `rest`: the block has been appended, the frames `fs` have been moved from RAB to
RXQ and counted, and nothing else has changed (R173, R181, R183). -/
def Sys2Proof.framesMoved (s u : State) (fs : List (List Byte)) (rest : List Byte) : Prop :=
  u = { afterRx s with
      first := false, mem := u.mem, rab := rest, rxlen := u.rxlen, rxcnt := s.rxcnt + BitVec.ofNat 9 fs.length }
    ∧ u.rxlen.toNat = s.rxlen.toNat + fs.flatten.length ∧ storesFrame s u fs.flatten ∧ (fs = [] → u.mem = s.mem)

/-! ## Encodings -/

/-- R96, R97: decoding gives back every encoded well-formed instruction, with every operand. -/
def Obligations.DecodeOfEncodeIsTheInstruction : Prop :=
  ∀ i : Instr, i.wf = true → decode (encode i) = .ok i

/-- R96, R97, R99: a decoded instruction is well formed, and its encoding is the word it was decoded from, but for the
data bits of a read, which mean nothing. -/
def Obligations.EncodeOfDecodeIsTheWord : Prop :=
  (∀ w i, decodeCmd w = .ok i → encode i = .cmd w)
    ∧ ∀ t i, decodeBus t = .ok i →
        i.wf = true ∧ encode i = .bus (if busW t then t else busOf false (busA t) 0#32)

/-- R96, R97, R98: the decoder accepts a word exactly when a row of spec/opcode_table.json matches it, and gives the
instruction with that row's mnemonic. -/
def Obligations.DecoderFollowsTheOpcodeTable : Prop :=
  (∀ w m, (∃ i, decodeCmd w = .ok i ∧ i.mnemonic = m) ↔ ∃ r ∈ cmdTable, r.mnemonic = m ∧ w &&& r.mask = r.value)
    ∧ ∀ t m, (∃ i, decodeBus t = .ok i ∧ i.mnemonic = m)
        ↔ ∃ r ∈ busTable, r.mnemonic = m ∧ t &&& r.mask = r.value

/-- R97: no bus transaction matches two rows of the table. -/
def Obligations.NoTransactionMatchesTwoRows : Prop :=
  ∀ t : BusWord, ∀ r ∈ busTable, ∀ q ∈ busTable, t &&& r.mask = r.value → t &&& q.mask = q.value → r = q

/-- R96, R97, R98, R101: words of every family, written out from the encodings and the listings of
spec/95_test_vectors.md, decode to what they stand for: control, codec, send and receive commands, control registers,
operand and result registers, windows, a read-only write, and four words that are refused. -/
def Obligations.WrittenOutWordsDecode : Prop :=
  decodeCmd 0x00000000#32 = .ok .nop ∧ decodeCmd 0x00000001#32 = .ok .encode ∧ decodeCmd 0x00000004#32 = .ok .decode
    ∧ decodeCmd 0x00000003#32 = .ok .encsend ∧ decodeCmd 0x00000005#32 = .ok .getframes
    ∧ decodeBus 0x80000001003#44 = .ok (.wrCtrl 0x1003#32) ∧ decodeBus 0x00400000000#44 = .ok .rdStatus
    ∧ decodeBus 0x80800000005#44 = .ok (.wrCmd 5#32) ∧ decodeBus 0x814000000EA#44 = .ok (.wrTxtype 0xEA#32)
    ∧ decodeBus 0x02000000000#44 = .ok .rdDres ∧ decodeBus 0x90400626160#44 = .ok (.wrPbuf 1#6 0x00626160#32)
    ∧ decodeBus 0x20C00000000#44 = .ok (.rdFbuf 3#7) ∧ decodeBus 0xB0044332211#44 = .ok (.wrFbuf 64#7 0x44332211#32)
    ∧ decodeBus 0x7FC00000000#44 = .ok (.rdRxq 255#8) ∧ decodeBus 0x82000000001#44 = .ok (.wrRo 0x020#11 1#32)
    ∧ decodeCmd 0x00000006#32 = .error .unlistedOpcode ∧ decodeCmd 0x00000105#32 = .error .reservedCommandBits
    ∧ decodeBus 0x00200000000#44 = .error .misaligned ∧ decodeBus 0x30400000000#44 = .error .reservedAddress

/-! ## Steps -/

/-- R7, R67, R97: when the host moves and its next access decodes to an instruction, the step is that instruction's
meaning, on the state from which the access has been taken. -/
def Obligations.HostStepRunsTheDecodedAccess : Prop :=
  ∀ s t i, hostIssues s t → decodeBus t = .ok i → step s = exec i (afterHost s)

/-- R41: when the sequencer moves in EXEC and CMD decodes to a command, the step is that command's meaning. -/
def Obligations.SequencerStepRunsTheDecodedCommand : Prop :=
  ∀ s i, mover s = .sequencer → s.seq = .exec → decodeCmd s.cmd = .ok i → step s = exec i (afterSeq s)

/-- R63, R64, R243: a misaligned access, an access to a reserved address, and a write to a read-only location get a bus
error and change no state. -/
def Obligations.RefusedAccessIsABusErrorAndChangesNothing : Prop :=
  ∀ s t, hostIssues s t →
    (busA t).toNat % 4 ≠ 0
      ∨ (0x030 ≤ (busA t).toNat ∧ (busA t).toNat ≤ 0x0FF)
      ∨ (0x304 ≤ (busA t).toNat ∧ (busA t).toNat ≤ 0x3FF)
      ∨ (busW t = true
          ∧ ((busA t).toNat ∈ [0x00C, 0x010, 0x020, 0x024, 0x028, 0x02C] ∨ 0x400 ≤ (busA t).toNat)) →
    step s = .next { afterHost s with resp := .err }

/-- R98, R211: a command word that is not 0..5 completes with IllegalCommand and ERRINFO = the whole word, and has no
other effect. -/
def Obligations.IllegalCommandWordOnlyCompletes : Prop :=
  ∀ s, mover s = .sequencer → s.seq = .exec → 5 < s.cmd.toNat →
    step s = .next (completed 11#4 s.cmd (afterSeq s))

/-- R102: the host's WAIT reads STATUS, and goes on exactly when the value read has BUSY = 0. That WAIT is one entry of
the host's list, which is taken off then, is the model's choice (log entry 15). -/
def Obligations.WaitReadsStatusUntilNotBusy : Prop :=
  ∀ s, mover s = .host → s.env.host.head? = some .wait →
    ∃ d : Word, d.getLsbD 0 = s.busy ∧ exec .rdStatus s = .next { s with resp := .data d }
      ∧ step s = .next { s with
          resp := .data d
          env := { s.env with
            host := if s.busy then s.env.host else s.env.host.tail
            sched := s.env.sched.tail } }

/-- R281: a reset event takes every piece of state to its reset value, from every state. -/
def Obligations.ResetEventGivesEveryResetValue : Prop :=
  ∀ s, mover s = .reset → ∃ t, step s = .next t
    ∧ t.en = false ∧ t.ie = false ∧ t.cancel = false ∧ t.maxatt = 16#8 ∧ t.ctrlWord = 0x00001000#32
    ∧ t.busy = false ∧ t.done = false ∧ t.toEmpty = false ∧ t.errcode = 0#4 ∧ t.statusWord = 0#32
    ∧ t.cmd = 0#32 ∧ t.errinfo = 0#32 ∧ t.paramWord = s.paramWord
    ∧ t.txtype = 0#8 ∧ t.plen = 0#8 ∧ t.flen = 0#9 ∧ t.dresWord = 0#32 ∧ t.rxlen = 0#11 ∧ t.rxcnt = 0#9
    ∧ t.cntWord = 0#32
    ∧ (∀ i < 256, t.pbuf i = 0#8) ∧ (∀ i < 260, t.fbuf i = 0#8) ∧ (∀ i < 1024, t.rxq i = 0#8)
    ∧ t.rab = [] ∧ t.seq = .idle ∧ t.k = 0 ∧ t.nch = 0 ∧ t.att = 0 ∧ t.first = false
    ∧ t.irq = false ∧ t.txPort = none ∧ t.rxReq = false

/-- R281 for the state that a run begins in. -/
def Obligations.ResetStateSatisfiesTheInvariant : Prop :=
  RunInv State.reset ∧ RxqHoldsFrames State.reset ∧ State.reset.ctrlWord = 0x00001000#32
    ∧ ∃ t, exec .rdStatus State.reset = .next t ∧ t.resp = .data 0#32

/-! ## Invariants and rules of the whole machine -/

/-- R22, R23, R29, R31, R32, R35, R36, R40, R186: every step keeps the invariant. -/
def Obligations.EveryStepKeepsTheInvariant : Prop := ∀ s t, RunInv s → step s = .next t → RunInv t

/-- Under the invariant no step stops, whatever the agents do. -/
def Obligations.EveryStepAnswersUnderTheInvariant : Prop := ∀ s, RunInv s → ∃ t, step s = .next t

/-- R34, R178, R182: RXQ holds RXCNT whole frames of RXLEN bytes in all, each with a parity that agrees, whatever step
is taken. -/
def Obligations.EveryStepKeepsWholeFramesInRxq : Prop :=
  ∀ s t, RunInv s → RxqHoldsFrames s → step s = .next t → RxqHoldsFrames t

/-- R38, R212, R241: BUSY is set by the acceptance of a command word that the host writes, and by nothing else; DONE is
set by the completion of the command in progress, and by nothing else. -/
def Obligations.OnlyAcceptanceSetsBusyAndOnlyCompletionSetsDone : Prop :=
  ∀ s t, RunInv s → step s = .next t →
    (s.busy = false → t.busy = true →
        ∃ a w, hostIssues s a ∧ decodeBus a = .ok (.wrCmd w) ∧ t.cmd = w ∧ t.seq = .exec ∧ t.done = false)
      ∧ (s.done = false → t.done = true → s.busy = true ∧ t.busy = false ∧ t.seq = .idle)

/-- R22, R70, R69: while a command runs nothing but a reset changes what it reads: EN, MAXATT, TXTYPE, PLEN and the
bytes of PBUF. -/
def Obligations.OperandsStandStillWhileBusy : Prop :=
  ∀ s t, s.busy = true → mover s ≠ .reset → step s = .next t →
    t.params = s.params ∧ t.en = s.en ∧ t.maxatt = s.maxatt ∧ t.txtype = s.txtype ∧ t.plen = s.plen
      ∧ ∀ i < 256, t.pbuf i = s.pbuf i

/-- R30: only a DECODE that completes with OK, or a reset, writes DRES. -/
def Obligations.OnlyASuccessfulDecodeWritesDres : Prop :=
  ∀ s t, step s = .next t → t.dresWord ≠ s.dresWord →
    mover s = .reset ∨ (mover s = .sequencer ∧ s.seq = .exec ∧ s.cmd = 4#32 ∧ t.errcode = 0#4 ∧ t.done = true)

/-- R34, R31, R32, R33: nothing that the host does changes RXQ, RXLEN, RXCNT or CNT. -/
def Obligations.HostCannotChangeTheResultList : Prop :=
  ∀ s t, mover s = .host → step s = .next t →
    t.rxlen = s.rxlen ∧ t.rxcnt = s.rxcnt ∧ t.cntWord = s.cntWord ∧ ∀ i < 1024, t.rxq i = s.rxq i

/-- R121, R152, R232, R280: FLEN and the bytes of FBUF change only in a host write, in the start of an ENCODE or ENCSEND,
or in a reset. -/
def Obligations.FrameBufferWriters : Prop :=
  ∀ s t, step s = .next t → (t.flen ≠ s.flen ∨ ∃ i < 260, t.fbuf i ≠ s.fbuf i) →
    mover s = .reset
      ∨ (mover s = .sequencer ∧ s.seq = .exec ∧ (s.cmd = 1#32 ∨ s.cmd = 3#32))
      ∨ ∃ a, hostIssues s a
          ∧ ((∃ d, decodeBus a = .ok (.wrFlen d)) ∨ ∃ i d, decodeBus a = .ok (.wrFbuf i d))

/-- R75, R153: the blocks handed to the transport stay handed, in order, and a step hands over at most one, which is
then on the TX port. -/
def Obligations.HandedBlocksAreNeverTakenBack : Prop :=
  ∀ s t, step s = .next t →
    t.env.sent = s.env.sent ∨ ∃ b, t.env.sent = s.env.sent ++ [b] ∧ t.txPort = some b ∧ t.seq = .txw

/-- R42, R287: with a transaction outstanding and no answer coming, the command stays where it is whatever the host and
the other agents do, and still no answer is coming, so that the next step finds the same; only reset ends the wait. -/
def Obligations.SilentTransportHangsTheCommand : Prop :=
  ∀ s t, s.busy = true → (s.seq = .txw ∧ s.env.tx = []) ∨ (s.seq = .rxw ∧ s.env.rx = []) → mover s ≠ .reset →
    step s = .next t →
    t.busy = true ∧ ((t.seq = .txw ∧ t.env.tx = []) ∨ (t.seq = .rxw ∧ t.env.rx = []))
      ∧ t.seq = s.seq ∧ (s.done = false → t.done = false) ∧ t.cmd = s.cmd ∧ t.k = s.k ∧ t.rab = s.rab
      ∧ t.txPort = s.txPort ∧ t.rxReq = s.rxReq ∧ t.env.sent = s.env.sent

/-- X2 of spec/93_implementation_defined.md, and R42: an answer that comes when no transaction of its kind is outstanding
is ignored. That the model then takes it off the agent's list and drops it is log entry 10. -/
def Obligations.StrayAnswersAreIgnored : Prop :=
  (∀ s, mover s = .tx → s.seq ≠ .txw →
      step s = .next { s with env := { s.env with tx := s.env.tx.tail, sched := s.env.sched.tail } })
    ∧ ∀ s, mover s = .rx → s.seq ≠ .rxw →
        step s = .next { s with env := { s.env with rx := s.env.rx.tail, sched := s.env.sched.tail } }

/-! ## Bus operations -/

/-- R67: no bus read has a side effect: it only answers. -/
def Obligations.BusReadsOnlyAnswer : Prop :=
  ∀ i s t, (∃ a, encode i = .bus a ∧ busW a = false) → exec i s = .next t → t = { s with resp := t.resp }

/-- R69: while BUSY only eight bus operations are accepted, and a CTRL write changes only IE and CANCEL; every other
access is a bus error and changes no state. -/
def Obligations.BusyGatingAcceptsEightOperations : Prop :=
  (∀ s i a, s.busy = true → encode i = .bus a →
      if i.mnemonic ∈ ["RD_CTRL", "RD_STATUS", "RD_CMD", "RD_ERRINFO", "RD_PARAM", "RD_CNT", "WR_CTRL", "WR_STATUS"]
      then ∃ t, exec i s = .next t ∧ t.resp ≠ .err
      else exec i s = .next { s with resp := .err })
    ∧ (∀ s d, s.busy = true →
        ∃ t, exec (.wrCtrl d) s = .next t ∧ t = { s with ie := t.ie, cancel := t.cancel, resp := .ok })
    ∧ ∀ s a r, s.busy = true → decodeBus a = .error r → busAccess a s = .next { s with resp := .err }

/-- R215: RD_CTRL, in every state. -/
def Obligations.CtrlReadReturnsItsFields : Prop :=
  ∀ s : State, ∃ d : Word, exec .rdCtrl s = .next { s with resp := .data d }
    ∧ d.getLsbD 0 = s.en ∧ d.getLsbD 1 = s.ie ∧ d.getLsbD 2 = s.cancel ∧ d.extractLsb' 3 5 = 0#5
    ∧ d.extractLsb' 8 8 = s.maxatt ∧ d.extractLsb' 16 16 = 0#16

/-- R217: RD_STATUS, in every state. -/
def Obligations.StatusReadReturnsItsFields : Prop :=
  ∀ s : State, ∃ d : Word, exec .rdStatus s = .next { s with resp := .data d }
    ∧ d.getLsbD 0 = s.busy ∧ d.getLsbD 1 = s.done ∧ d.getLsbD 2 = s.toEmpty
    ∧ (d.getLsbD 3 = true ↔ s.errcode ≠ 0#4) ∧ d.extractLsb' 4 4 = 0#4 ∧ d.extractLsb' 8 4 = s.errcode
    ∧ d.extractLsb' 12 20 = 0#20

/-- R213, R218, R229: RD_CMD, RD_ERRINFO and RD_CNT, in every state; after an acceptance CMD reads as the word and
ERRINFO as 0. -/
def Obligations.CmdErrinfoAndCntReads : Prop :=
  (∀ s, exec .rdCmd s = .next { s with resp := .data s.cmd }
      ∧ exec .rdErrinfo s = .next { s with resp := .data s.errinfo }
      ∧ ∃ d : Word, exec .rdCnt s = .next { s with resp := .data d }
          ∧ d.extractLsb' 0 16 = s.rdcnt ∧ d.extractLsb' 16 16 = s.txcnt)
    ∧ ∀ s w t, s.busy = false → exec (.wrCmd w) s = .next t →
        exec .rdCmd t = .next { t with resp := .data w } ∧ exec .rdErrinfo t = .next { t with resp := .data 0#32 }

/-- R26, R219: PARAM is RB, BLOCK_ID, 252 and 2. -/
def Obligations.ParamReadReturnsTheInstance : Prop :=
  ∀ s : State, s.params.Legal → ∃ d : Word, exec .rdParam s = .next { s with resp := .data d }
    ∧ (d.extractLsb' 0 8).toNat = s.params.rb ∧ d.extractLsb' 8 8 = s.params.blockId
    ∧ d.extractLsb' 16 8 = 252#8 ∧ d.extractLsb' 24 8 = 2#8

/-- R221, R223, R225, R226, R227, R228: the reads of the operand and result registers while idle; while busy each is a
bus error. -/
def Obligations.OperandAndResultRegisterReads : Prop :=
  (∀ s, s.busy = false →
      exec .rdTxtype s = .next { s with resp := .data (s.txtype.setWidth 32) }
      ∧ exec .rdPlen s = .next { s with resp := .data (s.plen.setWidth 32) }
      ∧ exec .rdFlen s = .next { s with resp := .data (s.flen.setWidth 32) }
      ∧ exec .rdRxlen s = .next { s with resp := .data (s.rxlen.setWidth 32) }
      ∧ exec .rdRxcnt s = .next { s with resp := .data (s.rxcnt.setWidth 32) }
      ∧ ∃ d : Word, exec .rdDres s = .next { s with resp := .data d } ∧ d.extractLsb' 0 8 = s.dtype
          ∧ d.extractLsb' 8 8 = s.dlen ∧ d.extractLsb' 16 8 = s.dpar ∧ d.extractLsb' 24 8 = 0#8)
    ∧ ∀ s, s.busy = true → ∀ i ∈ [Instr.rdTxtype, .rdPlen, .rdFlen, .rdRxlen, .rdRxcnt, .rdDres],
        exec i s = .next { s with resp := .err }

/-- R214: WR_CTRL, idle and busy; setting IE while DONE = 1 raises `irq` at once. -/
def Obligations.CtrlWriteIdleAndBusy : Prop :=
  ∀ s d,
    (s.busy = false → exec (.wrCtrl d) s = .next { s with
        ie := d.getLsbD 1
        en := d.getLsbD 0
        maxatt := if d.extractLsb' 8 8 = 0#8 then 1#8 else d.extractLsb' 8 8
        resp := .ok })
      ∧ (s.busy = true → exec (.wrCtrl d) s = .next { s with
          ie := d.getLsbD 1
          cancel := if d.getLsbD 2 then true else s.cancel
          resp := .ok })
      ∧ ∀ t, exec (.wrCtrl d) s = .next t → t.irq = (d.getLsbD 1 && s.done)

/-- R216, R249: WR_STATUS clears DONE by a 1 in bit 1, which lowers `irq`, and changes nothing else. -/
def Obligations.StatusWriteClearsDone : Prop :=
  ∀ s d, ∃ t, exec (.wrStatus d) s = .next t
    ∧ t = { s with done := if d.getLsbD 1 then false else s.done, resp := .ok }
    ∧ (d.getLsbD 1 = true → t.irq = false)

/-- R212: command acceptance while idle, of every word; while busy a bus error. -/
def Obligations.CmdWriteAcceptsWhenIdle : Prop :=
  ∀ s w,
    (s.busy = false → ∃ t, exec (.wrCmd w) s = .next t
        ∧ t = { s with
            cmd := w, busy := true, done := false, toEmpty := false, errcode := 0#4, errinfo := 0#32
            seq := .exec, resp := .ok }
        ∧ t.irq = false)
      ∧ (s.busy = true → exec (.wrCmd w) s = .next { s with resp := .err })

/-- R220, R222: WR_TXTYPE and WR_PLEN store the low byte while idle; while busy they are bus errors. -/
def Obligations.TxtypeAndPlenWritesStoreTheLowByte : Prop :=
  ∀ s d,
    (s.busy = false →
        exec (.wrTxtype d) s = .next { s with txtype := d.extractLsb' 0 8, resp := .ok }
        ∧ exec (.wrPlen d) s = .next { s with plen := d.extractLsb' 0 8, resp := .ok })
      ∧ (s.busy = true →
          exec (.wrTxtype d) s = .next { s with resp := .err } ∧ exec (.wrPlen d) s = .next { s with resp := .err })

/-- R224: WR_FLEN stores 0..260 while idle, and is otherwise a bus error that leaves FLEN unchanged. -/
def Obligations.FlenWriteStoresUpTo260 : Prop :=
  ∀ s d,
    (s.busy = false → d.toNat ≤ 260 →
        ∃ t, exec (.wrFlen d) s = .next t ∧ t = { s with flen := t.flen, resp := .ok } ∧ t.flen.toNat = d.toNat)
      ∧ (s.busy = true ∨ 260 < d.toNat → exec (.wrFlen d) s = .next { s with resp := .err })

/-- R65, R230: a write of word i of the PBUF window stores its four bytes, low byte first, and leaves every other byte
of the buffers and all other state alone. -/
def Obligations.PbufWriteStoresFourBytes : Prop :=
  ∀ s (i : BitVec 6) d,
    (s.busy = false → Memory.wf s.mem = true → ∃ t, exec (.wrPbuf i d) s = .next t
        ∧ t = { s with mem := t.mem, resp := .ok }
        ∧ (∀ j < 4, t.pbuf (4 * i.toNat + j) = d.extractLsb' (8 * j) 8)
        ∧ ∀ a, a < 0x100 + 4 * i.toNat ∨ 0x100 + 4 * i.toNat + 4 ≤ a → Memory.read t.mem a = Memory.read s.mem a)
      ∧ (s.busy = true → exec (.wrPbuf i d) s = .next { s with resp := .err })

/-- R65, R232: the same for word i = 0..64 of the FBUF window. -/
def Obligations.FbufWriteStoresFourBytes : Prop :=
  ∀ s (i : BitVec 7) d, i.toNat ≤ 64 →
    (s.busy = false → Memory.wf s.mem = true → ∃ t, exec (.wrFbuf i d) s = .next t
        ∧ t = { s with mem := t.mem, resp := .ok }
        ∧ (∀ j < 4, t.fbuf (4 * i.toNat + j) = d.extractLsb' (8 * j) 8)
        ∧ ∀ a, a < 0x200 + 4 * i.toNat ∨ 0x200 + 4 * i.toNat + 4 ≤ a → Memory.read t.mem a = Memory.read s.mem a)
      ∧ (s.busy = true → exec (.wrFbuf i d) s = .next { s with resp := .err })

/-- R65, R231, R233, R234: a window read returns the four bytes, low byte first, while idle; while busy it is a bus
error. -/
def Obligations.WindowReadsReturnFourBytes : Prop :=
  (∀ s (i : BitVec 6),
      (s.busy = false → ∃ d : Word, exec (.rdPbuf i) s = .next { s with resp := .data d }
          ∧ ∀ j < 4, d.extractLsb' (8 * j) 8 = s.pbuf (4 * i.toNat + j))
        ∧ (s.busy = true → exec (.rdPbuf i) s = .next { s with resp := .err }))
    ∧ (∀ s (i : BitVec 7), i.toNat ≤ 64 →
      (s.busy = false → ∃ d : Word, exec (.rdFbuf i) s = .next { s with resp := .data d }
          ∧ ∀ j < 4, d.extractLsb' (8 * j) 8 = s.fbuf (4 * i.toNat + j))
        ∧ (s.busy = true → exec (.rdFbuf i) s = .next { s with resp := .err }))
    ∧ ∀ s (i : BitVec 8),
      (s.busy = false → ∃ d : Word, exec (.rdRxq i) s = .next { s with resp := .data d }
          ∧ ∀ j < 4, d.extractLsb' (8 * j) 8 = s.rxq (4 * i.toNat + j))
        ∧ (s.busy = true → exec (.rdRxq i) s = .next { s with resp := .err })

/-- R65, R70: a window word reads back as it was written, and a write of one word leaves the other words' reads as they
were. -/
def Obligations.WindowWordReadsBack : Prop :=
  ∀ s d, s.busy = false → Memory.wf s.mem = true →
    (∀ i j : BitVec 6, ∃ t, exec (.wrPbuf i d) s = .next t
        ∧ exec (.rdPbuf j) t
          = .next { t with resp := if i = j then .data d else .data (s.windowWord (0x100 + 4 * j.toNat)) })
      ∧ ∀ i j : BitVec 7, i.toNat ≤ 64 → j.toNat ≤ 64 → ∃ t, exec (.wrFbuf i d) s = .next t
          ∧ exec (.rdFbuf j) t
            = .next { t with resp := if i = j then .data d else .data (s.windowWord (0x200 + 4 * j.toNat)) }

/-- R235: a write to each read-only location decodes to WR_RO, whose effect, busy or idle, is a bus error. -/
def Obligations.ReadOnlyWriteIsABusError : Prop :=
  (∀ a d, a ∈ [0x00C#11, 0x010#11, 0x020#11, 0x024#11, 0x028#11, 0x02C#11] ∨ (0x400 ≤ a.toNat ∧ a.toNat % 4 = 0) →
      decodeBus (busOf true a d) = .ok (.wrRo a d))
    ∧ ∀ s a d, exec (.wrRo a d) s = .next { s with resp := .err }

/-! ## Commands of the codec -/

/-- R210, R241: NOP only completes. -/
def Obligations.NopOnlyCompletes : Prop := ∀ s, s.cmd = 0#32 → exec .nop s = .next (completed 0#4 0#32 s)

/-- R121, R93: ENCODE refuses a payload longer than 252 bytes with no change but the completion record; else it writes
type, length, payload, parity and zero padding to FBUF and the padded size to FLEN, and leaves every other byte and
all other state alone. -/
def Obligations.EncodeWritesThePaddedFrame : Prop :=
  ∀ s, s.cmd = 1#32 → Memory.wf s.mem = true →
    (252 < s.plen.toNat → exec .encode s = .next (completed 8#4 (s.plen.setWidth 32) s))
      ∧ (s.plen.toNat ≤ 252 → ∃ t, exec .encode s = .next t
          ∧ t = { completed 0#4 0#32 s with mem := t.mem, flen := t.flen }
          ∧ t.flen.toNat = (s.plen.toNat + 3 + 6) / 7 * 7
          ∧ t.fbuf 0 = s.txtype ∧ (t.fbuf 1).toNat = s.plen.toNat + 1
          ∧ (∀ i < s.plen.toNat, t.fbuf (2 + i) = s.pbuf i)
          ∧ t.fbuf (s.plen.toNat + 2) = xorBytes (t.fbufBytes 0 (s.plen.toNat + 2))
          ∧ (∀ i, s.plen.toNat + 3 ≤ i → i < t.flen.toNat → t.fbuf i = 0#8)
          ∧ ∀ a, a < 0x200 ∨ 0x200 + t.flen.toNat ≤ a → Memory.read t.mem a = Memory.read s.mem a)

/-- R124: after an ENCODE that completes with OK the XOR of the frame up to the parity is the parity, and the XOR of
the whole padded frame is 0. -/
def Obligations.EncodedFrameHasEvenParity : Prop :=
  ∀ s t, Memory.wf s.mem = true → exec .encode s = .next t → t.errcode = 0#4 →
    t.fbuf (s.plen.toNat + 2) = xorBytes (t.fbufBytes 0 (s.plen.toNat + 2))
      ∧ xorBytes (t.fbufBytes 0 t.flen.toNat) = 0#8

/-- R123: ENCODE, then the acceptance of DECODE and its run: the frame decodes to its type, length, parity and payload
for 1 to 252 payload bytes, and with none DECODE completes with InvalidDeclaredLength and ERRINFO = 1. -/
def Obligations.DecodeOfEncodedFrameGivesItBack : Prop :=
  ∀ s, s.cmd = 1#32 → Memory.wf s.mem = true → s.plen.toNat ≤ 252 →
    ∃ t u, exec .encode s = .next t ∧ t.errcode = 0#4 ∧ exec .decode (accept 4#32 t) = .next u
      ∧ (1 ≤ s.plen.toNat → u.errcode = 0#4 ∧ u.dtype = s.txtype ∧ u.dlen.toNat = s.plen.toNat + 1
          ∧ u.dpar = u.fbuf (s.plen.toNat + 2) ∧ ∀ i < s.plen.toNat, u.fbuf (2 + i) = s.pbuf i)
      ∧ (s.plen.toNat = 0 → u.errcode = 2#4 ∧ u.errinfo = 1#32 ∧ u.dresWord = s.dresWord)

/-- R122, R246: DECODE's four checks in their order, with their records, and its result. -/
def Obligations.DecodeChecksInOrder : Prop :=
  ∀ s, s.cmd = 4#32 →
    (s.flen.toNat < 2 → exec .decode s = .next (completed 9#4 (s.flen.setWidth 32) s))
      ∧ (2 ≤ s.flen.toNat → (s.fbuf 1).toNat < 2 →
          exec .decode s = .next (completed 2#4 ((s.fbuf 1).setWidth 32) s))
      ∧ (2 ≤ s.flen.toNat → 2 ≤ (s.fbuf 1).toNat → s.flen.toNat < 2 + (s.fbuf 1).toNat →
          exec .decode s = .next (completed 9#4 (s.flen.setWidth 32) s))
      ∧ (2 ≤ (s.fbuf 1).toNat → 2 + (s.fbuf 1).toNat ≤ s.flen.toNat →
          (xorBytes (s.fbufBytes 0 (1 + (s.fbuf 1).toNat)) ≠ s.fbuf (1 + (s.fbuf 1).toNat) →
            ∃ info, exec .decode s = .next (completed 3#4 info s)
              ∧ hasFields info (s.fbuf (1 + (s.fbuf 1).toNat)) (xorBytes (s.fbufBytes 0 (1 + (s.fbuf 1).toNat))) 0#9)
          ∧ (xorBytes (s.fbufBytes 0 (1 + (s.fbuf 1).toNat)) = s.fbuf (1 + (s.fbuf 1).toNat) →
            exec .decode s = .next { completed 0#4 0#32 s with
              dtype := s.fbuf 0, dlen := s.fbuf 1, dpar := s.fbuf (1 + (s.fbuf 1).toNat) }))

/-! ## The send path -/

/-- R150, R151, R246: the start of SEND: NotOpen, InvalidFrameLength, an empty frame, a pending cancellation, or chunk 0
handed to the transport. -/
def Obligations.SendStartsTheLoop : Prop :=
  ∀ s, s.cmd = 2#32 →
    (s.en = false → exec .send s = .next (completed 6#4 0x200#32 { s with txcnt := 0#16 }))
      ∧ (s.en = true → s.flen.toNat % 7 ≠ 0 →
          exec .send s = .next (completed 1#4 (s.flen.setWidth 32) { s with txcnt := 0#16 }))
      ∧ (s.en = true → s.flen = 0#9 →
          exec .send s = .next (completed 0#4 0#32 { s with txcnt := 0#16, nch := 0, k := 0 }))
      ∧ (s.en = true → s.flen.toNat % 7 = 0 → s.flen ≠ 0#9 →
          (s.cancel = true → exec .send s
              = .next (completed 7#4 0x200#32 { s with txcnt := 0#16, nch := s.flen.toNat / 7, k := 0 }))
          ∧ (s.cancel = false → ∃ b, isBlock s 0 b ∧ exec .send s = .next { s with
              txcnt := 0#16, nch := s.flen.toNat / 7, k := 0, txPort := some b, seq := .txw
              env := { s.env with sent := s.env.sent ++ [b] } }))

/-- R150: the answer Ok counts the chunk; then the command completes after its last chunk, is cancelled, or hands over
the next chunk, in the same step. -/
def Obligations.OkAnswerGoesToTheNextChunk : Prop :=
  ∀ s a, txAnswers s a → a.err = false → (s.cmd = 2#32 ∨ s.cmd = 3#32) → s.k < s.nch → s.nch ≤ 37 →
    ∃ n : BitVec 16, n.toNat = min (s.txcnt.toNat + 1) 65535
      ∧ (s.k + 1 = s.nch →
          step s = .next (completed 0#4 0#32 { afterTx s with txcnt := n, k := s.k + 1 }))
      ∧ (s.k + 1 < s.nch → s.cancel = true → ∃ info,
          hasFields info 0#8 (s.cmd.extractLsb' 0 8) (BitVec.ofNat 9 (s.k + 1))
          ∧ step s = .next (completed 7#4 info { afterTx s with txcnt := n, k := s.k + 1 }))
      ∧ (s.k + 1 < s.nch → s.cancel = false → ∃ b, isBlock s (s.k + 1) b
          ∧ step s = .next { afterTx s with
              txcnt := n, k := s.k + 1, txPort := some b, seq := .txw
              env := { (afterTx s).env with sent := s.env.sent ++ [b] } })

/-- R150, R153, R242: the answer Err(c) ends the command with TransportError; CNT.TXCNT and the blocks handed over stay
as they are. -/
def Obligations.ErrorAnswerEndsTheSend : Prop :=
  ∀ s a, txAnswers s a → a.err = true → (s.cmd = 2#32 ∨ s.cmd = 3#32) → s.k ≤ 37 →
    ∃ info, hasFields info a.code (s.cmd.extractLsb' 0 8) (BitVec.ofNat 9 s.k)
      ∧ step s = .next (completed 5#4 info (afterTx s))

/-- R152: ENCSEND refuses a long payload before anything is sent; else it writes FBUF and FLEN as ENCODE does, and then
a closed session ends it with those writes kept, a pending cancellation ends it, or chunk 0 of the new frame is
handed over. -/
def Obligations.EncsendEncodesThenSends : Prop :=
  ∀ s, s.cmd = 3#32 → Memory.wf s.mem = true →
    (252 < s.plen.toNat →
        exec .encsend s = .next (completed 8#4 (s.plen.setWidth 32) { s with txcnt := 0#16 }))
      ∧ (s.plen.toNat ≤ 252 → ∃ e u, exec .encode { s with cmd := 1#32 } = .next e
          ∧ e.errcode = 0#4 ∧ u = { s with mem := e.mem, flen := e.flen, txcnt := 0#16 }
          ∧ (s.en = false → exec .encsend s = .next (completed 6#4 0x300#32 u))
          ∧ (s.en = true → s.cancel = true →
              exec .encsend s = .next (completed 7#4 0x300#32 { u with nch := e.flen.toNat / 7, k := 0 }))
          ∧ (s.en = true → s.cancel = false → ∃ b, isBlock u 0 b ∧ exec .encsend s = .next { u with
              nch := e.flen.toNat / 7, k := 0, txPort := some b, seq := .txw
              env := { s.env with sent := s.env.sent ++ [b] } }))

/-- R150, R151, R75: a SEND of n chunks that the transport answers with Ok n times completes with OK after its EXEC step
and n answers, having handed over chunks 0 .. n-1 in order, with TXCNT = n and the buffers as they were. With an empty
schedule the agents move in the model's default order (log entry 4). -/
def Obligations.SendOfNChunksCompletes : Prop :=
  ∀ s n acks rest, s.seq = .exec → s.cmd = 2#32 → s.en = true → s.cancel = false → s.env.sched = [] →
    s.flen.toNat = 7 * n → n ≤ 37 → s.env.tx = acks ++ rest → acks.length = n → (∀ a ∈ acks, a.err = false) →
    ∃ t blocks, Host.Core.run core (1 + n) s = .next t
      ∧ t.env.sent = s.env.sent ++ blocks ∧ blocks.length = n
      ∧ (∀ k, (h : k < blocks.length) → isBlock s k blocks[k])
      ∧ t.txcnt.toNat = n ∧ t.errcode = 0#4 ∧ t.errinfo = 0#32 ∧ t.done = true ∧ t.busy = false ∧ t.seq = .idle
      ∧ t.mem = s.mem ∧ t.flen = s.flen ∧ t.env.tx = rest

/-! ## The receive path -/

/-- R178, R171: the start of GETFRAMES empties the list; a closed session and a pending cancellation end it, and else
the first read is issued. -/
def Obligations.GetframesStartsWithARead : Prop :=
  ∀ s, s.cmd = 5#32 →
    (s.en = false → exec .getframes s = .next (rxFailed 6#4 0x500#32 { s with rdcnt := 0#16, first := true }))
      ∧ (s.en = true → s.cancel = true → exec .getframes s
          = .next (rxFailed 7#4 0x500#32 { s with rdcnt := 0#16, first := true, att := 0 }))
      ∧ (s.en = true → s.cancel = false → exec .getframes s = .next { s with
          rdcnt := 1#16, rab := [], rxlen := 0#11, rxcnt := 0#9, first := true, att := 1, rxReq := true, seq := .rxw })

/-- R41, R171, R177: the end of a backoff is the next attempt, or Cancelled. -/
def Obligations.BackoffEndsInTheNextAttempt : Prop :=
  ∀ s, mover s = .sequencer → s.seq = .bkoff → s.cmd = 5#32 →
    (s.cancel = true → ∃ info, hasFields info 0#8 5#8 s.rxcnt
        ∧ step s = .next (rxFailed 7#4 info (afterSeq s)))
      ∧ (s.cancel = false → ∃ n : BitVec 16, n.toNat = min (s.rdcnt.toNat + 1) 65535
          ∧ step s = .next { afterSeq s with att := s.att + 1, rdcnt := n, rxReq := true, seq := .rxw })

/-- R172, R95: an RX error is not retried: it ends GETFRAMES with TransportError, whatever the data signals hold. -/
def Obligations.RxErrorEndsGetframes : Prop :=
  ∀ s a, rxAnswers s a → a.err = true →
    ∃ info, hasFields info a.code 5#8 s.rxcnt ∧ step s = .next (rxFailed 5#4 info (afterRx s))

/-- R174, R175: an all-zero block is discarded; with the budget spent GETFRAMES completes with TimeoutExceeded and
TO_EMPTY = FIRST, else the backoff begins. -/
def Obligations.ZeroBlockIsRetriedUpToMaxatt : Prop :=
  ∀ s a, rxAnswers s a → a.err = false → (∀ i < s.params.rb, a.data.extractLsb' (8 * i) 8 = 0#8) → s.att ≤ 255 →
    (s.maxatt.toNat ≤ s.att → ∃ info, hasFields info (BitVec.ofNat 8 s.att) 5#8 s.rxcnt
        ∧ step s = .next { rxFailed 4#4 info (afterRx s) with toEmpty := s.first })
      ∧ (s.att < s.maxatt.toNat → step s = .next { afterRx s with seq := .bkoff })

/-- R173, R179, R181, R184, R171: a block with a non-zero byte is appended whole, and the whole good frames at RAB's
front, each followed by a remainder that is not all zero, go to RXQ; while what is then left is short of 2 bytes or of
its frame the next readOne begins, unless a cancellation is pending. -/
def Obligations.IncompleteFrameReadsOn : Prop :=
  ∀ s b fs rest, framesThenRest s b fs rest →
    rest.length < 2 ∨ (2 ≤ lenOf rest ∧ rest.length < 2 + lenOf rest) →
    ∃ u, framesMoved s u fs rest
      ∧ (s.cancel = false → ∃ n : BitVec 16, n.toNat = min (s.rdcnt.toNat + 1) 65535
          ∧ step s = .next { u with att := 1, rdcnt := n, rxReq := true, seq := .rxw })
      ∧ (s.cancel = true → ∃ info, hasFields info 0#8 5#8 u.rxcnt
          ∧ step s = .next (rxFailed 7#4 info { u with att := 0 }))

/-- R180 to R184, R291: behind the whole good frames at RAB's front, each followed by a remainder that is not all zero, a
declared length below 2, a parity that does not agree, and a frame that does not fit in RXQ each end GETFRAMES with its
record, checked in that order. -/
def Obligations.BadFrameEndsGetframes : Prop :=
  ∀ s b fs r l, framesThenRest s b fs r → l = lenOf r → 2 ≤ r.length →
    ∃ u, framesMoved s u fs r
      ∧ (l < 2 → ∃ info, hasFields info (r.getD 1 0#8) 0#8 u.rxcnt ∧ step s = .next (rxFailed 2#4 info u))
      ∧ (2 ≤ l → 2 + l ≤ r.length → xorBytes (r.take (1 + l)) ≠ r.getD (1 + l) 0#8 → ∃ info,
          hasFields info (r.getD (1 + l) 0#8) (xorBytes (r.take (1 + l))) u.rxcnt
          ∧ step s = .next (rxFailed 3#4 info u))
      ∧ (2 ≤ l → 2 + l ≤ r.length → xorBytes (r.take (1 + l)) = r.getD (1 + l) 0#8 →
          1024 < u.rxlen.toNat + 2 + l → ∃ info,
          info.extractLsb' 0 11 = u.rxlen ∧ info.extractLsb' 11 5 = 0#5 ∧ info.extractLsb' 16 9 = u.rxcnt
          ∧ info.extractLsb' 25 7 = 0#7
          ∧ step s = .next (rxFailed 10#4 info u))

/-- R181, R183, R184: behind the whole good frames at RAB's front, a good frame that an all-zero remainder follows is
stored in RXQ and counted, and GETFRAMES completes with OK. -/
def Obligations.GoodFrameWithZeroRemainderCompletes : Prop :=
  ∀ s b fs r l, framesThenRest s b fs r → Memory.wf s.mem = true → l = lenOf r →
    2 ≤ l → 2 + l ≤ r.length → xorBytes (r.take (1 + l)) = r.getD (1 + l) 0#8 →
    s.rxlen.toNat + fs.flatten.length + 2 + l ≤ 1024 → (∀ x ∈ r.drop (2 + l), x = 0#8) →
    ∃ u t, framesMoved s u fs r ∧ step s = .next t
      ∧ t = { completed 0#4 0#32 u with mem := t.mem, rab := [], rxlen := t.rxlen, rxcnt := u.rxcnt + 1#9 }
      ∧ t.rxlen.toNat = u.rxlen.toNat + 2 + l
      ∧ storesFrame u t (r.take (2 + l))

/-- R187, R178, R184: the reassembler gives back the frames that were put on the stream. Take valid frames `fs`, 1024
bytes or less, followed by fewer than RB zeros and cut into read blocks of RB bytes of which none is all zero; let no
frame but the last be followed, in the block that its last byte lies in, by zeros only or by nothing (R184 would stop
there). Then GETFRAMES, given those blocks, completes with OK and RXQ holds exactly `fs`. With an empty schedule the
agents move in the model's default order (log entry 4). -/
def Obligations.GetframesGivesBackTheFramesOfTheStream : Prop :=
  ∀ s (fs bs : List (List Byte)) (z : Nat) (acks rest : List RxAck),
    s.seq = .exec → s.cmd = 5#32 → s.en = true → s.cancel = false → s.env.sched = [] → Memory.wf s.mem = true →
    1 ≤ s.params.rb → fs ≠ [] → (∀ f ∈ fs, validFrame f = true) → fs.flatten.length ≤ 1024 →
    bs.flatten = fs.flatten ++ List.replicate z 0#8 → z < s.params.rb →
    (∀ b ∈ bs, b.length = s.params.rb ∧ ∃ x ∈ b, x ≠ 0#8) →
    (∀ gs hs, fs = gs ++ hs → gs ≠ [] → hs ≠ [] →
      ∃ x ∈ (bs.flatten.take (((gs.flatten.length - 1) / s.params.rb + 1) * s.params.rb)).drop gs.flatten.length,
        x ≠ 0#8) →
    List.Forall₂ (fun a b => a.err = false ∧ carries s.params.rb a.data b) acks bs → s.env.rx = acks ++ rest →
    ∃ t, Host.Core.run core (1 + bs.length) s = .next t
      ∧ t.errcode = 0#4 ∧ t.done = true ∧ t.busy = false ∧ t.seq = .idle
      ∧ t.rxcnt.toNat = fs.length ∧ t.rxlen.toNat = fs.flatten.length
      ∧ t.rxqBytes t.rxlen.toNat = fs.flatten ∧ t.rdcnt.toNat = bs.length ∧ t.env.rx = rest

/-- R185, R178: whenever a step completes a GETFRAMES, RAB is empty, an error leaves no frame, and OK at least one. -/
def Obligations.GetframesCompletionLeavesAllOrNothing : Prop :=
  ∀ s t, RunInv s → s.busy = true → s.cmd = 5#32 → mover s ≠ .reset → step s = .next t → t.busy = false →
    t.rab = [] ∧ (t.errcode ≠ 0#4 → t.rxlen = 0#11 ∧ t.rxcnt = 0#9) ∧ (t.errcode = 0#4 → 1 ≤ t.rxcnt.toNat)

/-- R256, R288, R22: the host's CANCEL never ends a command by itself: a host step while busy completes nothing. Every
completion clears CANCEL. A command completes with Cancelled only with CANCEL = 1 and at a check point: before a chunk
or an attempt, which is the start of SEND, ENCSEND or GETFRAMES, the end of a backoff, the TX answer Ok, or a block
with a non-zero byte. -/
def Obligations.CancelActsOnlyAtCheckPoints : Prop :=
  ∀ s t, RunInv s → s.busy = true → step s = .next t →
    (mover s = .host → t.busy = true ∧ t.seq = s.seq) ∧ (t.busy = false → t.cancel = false)
      ∧ (t.busy = false → t.errcode = 7#4 → s.cancel = true
          ∧ ((mover s = .sequencer ∧ s.seq = .exec ∧ (s.cmd = 2#32 ∨ s.cmd = 3#32 ∨ s.cmd = 5#32))
            ∨ (mover s = .sequencer ∧ s.seq = .bkoff)
            ∨ (∃ a, txAnswers s a ∧ a.err = false)
            ∨ ∃ b, dataArrives s b))
end

