-- ==== Sys2Proof/Laws/Decode.lean ====
section
/-! SUPPORT. The fields of a bus transaction that was put together from fields, and the masks of the opcode table on
it. -/

namespace Sys2Proof

/-- The bits of a transaction, field by field. -/
theorem busOf_getLsbD (w : Bool) (a : Addr) (d : Word) (i : Nat) :
    (busOf w a d).getLsbD i
      = if i < 32 then d.getLsbD i else if i - 32 < 11 then a.getLsbD (i - 32) else (BitVec.ofBool w).getLsbD (i - 43) := by
  show BitVec.getLsbD (w := 1 + 11 + 32) ((BitVec.ofBool w ++ a) ++ d) i = _
  rw [BitVec.getLsbD_append, BitVec.getLsbD_append]
  by_cases h1 : i < 32
  · simp [h1]
  · by_cases h2 : i - 32 < 11
    · simp [h1, h2]
    · have : i - 32 - 11 = i - 43 := by omega
      simp [h1, h2, this]

@[simp] theorem busW_busOf (w : Bool) (a : Addr) (d : Word) : busW (busOf w a d) = w := by
  unfold busW
  rw [busOf_getLsbD]
  simp

@[simp] theorem busA_busOf (w : Bool) (a : Addr) (d : Word) : busA (busOf w a d) = a := by
  apply BitVec.eq_of_getLsbD_eq
  intro i hi
  unfold busA
  rw [BitVec.getLsbD_extractLsb', busOf_getLsbD]
  have h : ¬ 32 + i < 32 := by omega
  have h' : 32 + i - 32 = i := by omega
  simp only [h, h', hi, if_true, if_false, decide_true, Bool.true_and]

@[simp] theorem busD_busOf (w : Bool) (a : Addr) (d : Word) : busD (busOf w a d) = d := by
  apply BitVec.eq_of_getLsbD_eq
  intro i hi
  unfold busD
  rw [BitVec.getLsbD_extractLsb', busOf_getLsbD]
  simp [hi]

/-- A transaction is its three fields (R97). -/
theorem busOf_fields (t : BusWord) : busOf (busW t) (busA t) (busD t) = t := by
  apply BitVec.eq_of_getLsbD_eq
  intro i hi
  rw [busOf_getLsbD]
  unfold busW busA busD
  by_cases h1 : i < 32
  · simp [h1]
  · by_cases h2 : i - 32 < 11
    · have : 32 + (i - 32) = i := by omega
      simp [h1, h2, this]
    · have : i = 43 := by omega
      subst this
      simp

/-- The decoder sees only the fields. -/
@[simp] theorem decodeBus_busOf_write (a : Addr) (d : Word) : decodeBus (busOf true a d) = decodeWrite a d := by
  simp [decodeBus]

@[simp] theorem decodeBus_busOf_read (a : Addr) (d : Word) : decodeBus (busOf false a d) = decodeRead a := by
  simp [decodeBus]

/-- A mask that leaves D open sees only W and A. -/
theorem busOf_and_mask (w : Bool) (a : Addr) (d : Word) (m : BitVec 12) :
    busOf w a d &&& (m ++ 0#32) = ((BitVec.ofBool w ++ a) &&& m) ++ 0#32 := by
  unfold busOf
  rw [BitVec.and_append]
  simp

end Sys2Proof
end

