-- ==== Sys2Proof/Laws/Memory.lean ====
section
/-! SUPPORT. The laws of the buffer memory: read after write, the canonical form, and runs of bytes. -/

namespace Sys2Proof.Machine

@[simp] theorem memory_read_nil (a : Nat) : Memory.read [] a = 0#8 := rfl

@[simp] theorem memory_wf_nil : Memory.wf [] = true := rfl

@[simp] theorem memory_mapped_nil : Memory.mapped [] = true := rfl

/-- Above a bound that every entry exceeds, nothing at or below it is listed. -/
theorem memory_read_of_wfAbove {m : Memory} {a b : Nat} (h : Memory.wfAbove b m = true) (hab : a ≤ b) :
    Memory.read m a = 0#8 := by
  induction m generalizing b with
  | nil => rfl
  | cons c m ih =>
    obtain ⟨x, v⟩ := c
    simp only [Memory.wfAbove, Bool.and_eq_true, decide_eq_true_eq] at h
    have hx : x ≠ a := by omega
    simp only [Memory.read, hx, if_false]
    exact ih h.2 (by omega)

/-- A lower bound may be weakened. -/
theorem memory_wfAbove_mono {m : Memory} {a b : Nat} (h : Memory.wfAbove b m = true) (hab : a ≤ b) :
    Memory.wfAbove a m = true := by
  cases m with
  | nil => rfl
  | cons c m =>
    obtain ⟨x, v⟩ := c
    simp only [Memory.wfAbove, Bool.and_eq_true, decide_eq_true_eq] at h ⊢
    exact ⟨⟨by omega, h.1.2⟩, h.2⟩

/-- Writing above the bound keeps the form above the bound. -/
theorem memory_write_wfAbove {m : Memory} {b a : Nat} {v : Byte} (h : Memory.wfAbove b m = true) (hab : b < a) :
    Memory.wfAbove b (Memory.write m a v) = true := by
  induction m generalizing b with
  | nil =>
    unfold Memory.write
    split
    · rfl
    · simp_all [Memory.wfAbove]
  | cons c m ih =>
    obtain ⟨x, w⟩ := c
    have h' := h
    simp only [Memory.wfAbove, Bool.and_eq_true, decide_eq_true_eq] at h'
    unfold Memory.write
    split
    · split
      · exact h
      · rename_i hlt hv
        simp only [Memory.wfAbove, Bool.and_eq_true, decide_eq_true_eq]
        exact ⟨⟨hab, hv⟩, ⟨hlt, h'.1.2⟩, h'.2⟩
    · split
      · split
        · exact memory_wfAbove_mono h'.2 (by omega)
        · rename_i hx hv
          simp only [Memory.wfAbove, Bool.and_eq_true, decide_eq_true_eq]
          exact ⟨⟨hab, hv⟩, hx ▸ h'.2⟩
      · simp only [Memory.wfAbove, Bool.and_eq_true, decide_eq_true_eq]
        exact ⟨h'.1, ih h'.2 (by omega)⟩

/-- A write keeps the canonical form. -/
theorem memory_write_wf {m : Memory} {a : Nat} {v : Byte} (h : Memory.wf m = true) :
    Memory.wf (Memory.write m a v) = true := by
  cases m with
  | nil =>
    unfold Memory.write
    split
    · rfl
    · simp_all [Memory.wf, Memory.wfAbove]
  | cons c m =>
    obtain ⟨x, w⟩ := c
    have h' := h
    simp only [Memory.wf, Bool.and_eq_true, decide_eq_true_eq] at h'
    unfold Memory.write
    split
    · split
      · exact h
      · simp_all [Memory.wf, Memory.wfAbove]
    · split
      · split
        · cases m with
          | nil => rfl
          | cons d m =>
            obtain ⟨y, u⟩ := d
            have := h'.2
            simp only [Memory.wfAbove, Bool.and_eq_true, decide_eq_true_eq] at this
            simp only [Memory.wf, Bool.and_eq_true, decide_eq_true_eq]
            exact ⟨this.1.2, this.2⟩
        · simp_all [Memory.wf]
      · simp only [Memory.wf, Bool.and_eq_true, decide_eq_true_eq]
        exact ⟨h'.1, memory_write_wfAbove h'.2 (by omega)⟩

/-- A write leaves every other address alone. -/
theorem memory_read_write_ne (m : Memory) {a x : Nat} (v : Byte) (h : x ≠ a) :
    Memory.read (Memory.write m a v) x = Memory.read m x := by
  induction m with
  | nil =>
    unfold Memory.write
    split
    · rfl
    · simp [Memory.read, Ne.symm h]
  | cons c m ih =>
    obtain ⟨y, w⟩ := c
    unfold Memory.write
    split
    · split
      · rfl
      · simp [Memory.read, Ne.symm h]
    · split
      · rename_i hy
        subst hy
        split <;> simp [Memory.read, Ne.symm h]
      · simp only [Memory.read, ih]

/-- Reading back what was written, above a bound. -/
theorem memory_read_write_same_above {m : Memory} {b a : Nat} (v : Byte) (h : Memory.wfAbove b m = true) :
    Memory.read (Memory.write m a v) a = v := by
  induction m generalizing b with
  | nil =>
    unfold Memory.write
    split <;> simp_all [Memory.read]
  | cons c m ih =>
    obtain ⟨x, w⟩ := c
    have h' := h
    simp only [Memory.wfAbove, Bool.and_eq_true, decide_eq_true_eq] at h'
    unfold Memory.write
    split
    · rename_i hlt
      split
      · rename_i hv
        have hx : x ≠ a := by omega
        simp only [Memory.read, hx, if_false, hv]
        exact memory_read_of_wfAbove h'.2 (by omega)
      · simp [Memory.read]
    · split
      · rename_i hx
        split
        · rename_i hv
          rw [hv]
          exact memory_read_of_wfAbove h'.2 (by omega)
        · simp [Memory.read]
      · rename_i hx
        simp only [Memory.read, hx, if_false]
        exact ih h'.2

/-- A read after a write to the same address gives the value written. -/
theorem memory_read_write_same {m : Memory} (a : Nat) (v : Byte) (h : Memory.wf m = true) :
    Memory.read (Memory.write m a v) a = v := by
  cases m with
  | nil => unfold Memory.write; split <;> simp_all [Memory.read]
  | cons c m =>
    obtain ⟨x, w⟩ := c
    simp only [Memory.wf, Bool.and_eq_true, decide_eq_true_eq] at h
    by_cases hx : 0 < x
    · exact memory_read_write_same_above (b := 0) v (by simp [Memory.wfAbove, hx, h])
    · obtain rfl : x = 0 := by omega
      unfold Memory.write
      split
      · omega
      · split
        · split
          · rename_i hxa hv
            rw [hv]
            exact memory_read_of_wfAbove h.2 (by omega)
          · simp [Memory.read]
        · rename_i hxa
          simp only [Memory.read, hxa, if_false]
          exact memory_read_write_same_above v h.2

/-- A write to a buffer byte keeps the memory within the buffers. -/
theorem memory_write_mapped {m : Memory} {a : Nat} {v : Byte} (h : Memory.mapped m = true)
    (ha : windowByte a = true) : Memory.mapped (Memory.write m a v) = true := by
  induction m with
  | nil => unfold Memory.write; split <;> simp_all [Memory.mapped]
  | cons c m ih =>
    obtain ⟨x, w⟩ := c
    simp only [Memory.mapped, List.all_cons, Bool.and_eq_true] at h ih
    have keep : Memory.mapped ((x, w) :: m) = true := by
      simp only [Memory.mapped, List.all_cons, Bool.and_eq_true]
      exact h
    unfold Memory.write
    split
    · split
      · exact keep
      · simp only [Memory.mapped, List.all_cons, Bool.and_eq_true]
        exact ⟨ha, h⟩
    · split
      · split
        · exact h.2
        · simp only [Memory.mapped, List.all_cons, Bool.and_eq_true]
          exact ⟨ha, h.2⟩
      · simp only [Memory.mapped, List.all_cons, Bool.and_eq_true]
        exact ⟨h.1, ih h.2⟩

/-! ## Runs of bytes -/

@[simp] theorem memory_writeBytes_nil (m : Memory) (a : Nat) : Memory.writeBytes m a [] = m := rfl

@[simp] theorem memory_readBytes_zero (m : Memory) (a : Nat) : Memory.readBytes m a 0 = [] := rfl

theorem memory_readBytes_succ (m : Memory) (a n : Nat) :
    Memory.readBytes m a (n + 1) = Memory.read m a :: Memory.readBytes m (a + 1) n := rfl

@[simp] theorem memory_readBytes_length (m : Memory) (a n : Nat) : (Memory.readBytes m a n).length = n := by
  induction n generalizing a with
  | zero => rfl
  | succ n ih => simp [Memory.readBytes, ih]

theorem memory_readBytes_getElem (m : Memory) (a n i : Nat) (h : i < (Memory.readBytes m a n).length) :
    (Memory.readBytes m a n)[i] = Memory.read m (a + i) := by
  induction n generalizing a i with
  | zero => simp at h
  | succ n ih =>
    cases i with
    | zero => rfl
    | succ i =>
      simp only [Memory.readBytes, List.getElem_cons_succ]
      rw [ih]
      congr 1
      omega

theorem memory_readBytes_append (m : Memory) (a n k : Nat) :
    Memory.readBytes m a (n + k) = Memory.readBytes m a n ++ Memory.readBytes m (a + n) k := by
  induction n generalizing a with
  | zero => simp
  | succ n ih =>
    rw [show n + 1 + k = (n + k) + 1 by omega]
    simp only [Memory.readBytes, List.cons_append, ih]
    rw [show a + 1 + n = a + (n + 1) by omega]

/-- Two memories that agree on a run of addresses read the same bytes there. -/
theorem memory_readBytes_congr {m m' : Memory} {a n : Nat}
    (h : ∀ x, a ≤ x → x < a + n → Memory.read m x = Memory.read m' x) :
    Memory.readBytes m a n = Memory.readBytes m' a n := by
  induction n generalizing a with
  | zero => rfl
  | succ n ih =>
    simp only [Memory.readBytes]
    rw [h a (by omega) (by omega), ih fun x hx hx' => h x (by omega) (by omega)]

/-- A run of writes keeps the canonical form. -/
theorem memory_writeBytes_wf {m : Memory} {a : Nat} {bs : List Byte} (h : Memory.wf m = true) :
    Memory.wf (Memory.writeBytes m a bs) = true := by
  induction bs generalizing m a with
  | nil => exact h
  | cons b bs ih => exact ih (memory_write_wf h)

/-- Storing two runs of bytes one behind the other is storing them joined. -/
theorem memory_writeBytes_append (m : Memory) (a : Nat) (xs ys : List Byte) :
    Memory.writeBytes m a (xs ++ ys) = Memory.writeBytes (Memory.writeBytes m a xs) (a + xs.length) ys := by
  induction xs generalizing m a with
  | nil => rfl
  | cons x xs ih =>
    simp only [List.cons_append, Memory.writeBytes, List.length_cons, ih]
    rw [Nat.add_assoc, Nat.add_comm 1]

/-- A run of writes inside a buffer keeps the memory within the buffers. -/
theorem memory_writeBytes_mapped {m : Memory} {a : Nat} {bs : List Byte} (h : Memory.mapped m = true)
    (ha : ∀ x, a ≤ x → x < a + bs.length → windowByte x = true) :
    Memory.mapped (Memory.writeBytes m a bs) = true := by
  induction bs generalizing m a with
  | nil => exact h
  | cons b bs ih =>
    refine ih (memory_write_mapped h (ha a (by omega) (by simp))) fun x hx hx' => ha x (by omega) ?_
    simp only [List.length_cons]
    omega

/-- A run of writes leaves every address outside it alone. -/
theorem memory_read_writeBytes_outside (m : Memory) {a x : Nat} (bs : List Byte)
    (h : x < a ∨ a + bs.length ≤ x) : Memory.read (Memory.writeBytes m a bs) x = Memory.read m x := by
  induction bs generalizing m a with
  | nil => rfl
  | cons b bs ih =>
    simp only [List.length_cons] at h
    simp only [Memory.writeBytes]
    rw [ih _ (by omega), memory_read_write_ne _ _ (by omega)]

/-- Reading inside a run gives the byte written there. -/
theorem memory_read_writeBytes_inside {m : Memory} {a : Nat} {bs : List Byte} (hm : Memory.wf m = true) (i : Nat)
    (h : i < bs.length) : Memory.read (Memory.writeBytes m a bs) (a + i) = bs[i] := by
  induction bs generalizing m a i with
  | nil => simp at h
  | cons b bs ih =>
    simp only [Memory.writeBytes]
    cases i with
    | zero =>
      rw [memory_read_writeBytes_outside _ _ (by omega)]
      simpa using memory_read_write_same a b hm
    | succ i =>
      have := ih (m := Memory.write m a b) (a := a + 1) (memory_write_wf hm) i (by simpa using h)
      rw [show a + (i + 1) = a + 1 + i by omega, this]
      rfl

/-- Reading a run back. -/
theorem memory_readBytes_writeBytes {m : Memory} (a : Nat) (bs : List Byte) (hm : Memory.wf m = true) :
    Memory.readBytes (Memory.writeBytes m a bs) a bs.length = bs := by
  apply List.ext_getElem
  · simp
  · intro i h _
    rw [memory_readBytes_getElem]
    exact memory_read_writeBytes_inside hm i (by simpa using h)

/-- `State.store` keeps the canonical form. -/
theorem store_wf {s : State} {a : Nat} {bs : List Byte} (h : Memory.wf s.mem = true) :
    Memory.wf (s.store a bs).mem = true :=
  memory_writeBytes_wf h

end Sys2Proof.Machine
end

