-- ==== Sys2Proof/Laws/Operands.lean ====
section
/-! SUPPORT. The laws of the byte arithmetic: XOR parity, rounding to chunks, window words, and the padded frame. -/

namespace Sys2Proof.Machine

/-! ## XOR (R10, R120) -/

theorem xor_foldl_init (bs : List Byte) (x : Byte) : bs.foldl (· ^^^ ·) x = x ^^^ xorBytes bs := by
  induction bs generalizing x with
  | nil => simp [xorBytes]
  | cons b bs ih =>
    simp only [xorBytes, List.foldl_cons] at ih ⊢
    rw [ih (x ^^^ b), ih (0#8 ^^^ b)]
    simp [BitVec.xor_assoc]

@[simp] theorem xorBytes_nil : xorBytes [] = 0#8 := rfl

@[simp] theorem xorBytes_cons (b : Byte) (bs : List Byte) : xorBytes (b :: bs) = b ^^^ xorBytes bs := by
  have := xor_foldl_init bs b
  simpa [xorBytes] using this

@[simp] theorem xorBytes_append (xs ys : List Byte) : xorBytes (xs ++ ys) = xorBytes xs ^^^ xorBytes ys := by
  induction xs with
  | nil => simp
  | cons x xs ih => simp [ih, BitVec.xor_assoc]

/-- Zero padding does not change the XOR (R120). -/
@[simp] theorem xorBytes_zeros (n : Nat) : xorBytes (List.replicate n 0#8) = 0#8 := by
  induction n with
  | zero => rfl
  | succ n ih => simp [List.replicate_succ, ih]

/-! ## Rounding (R9) -/

theorem roundup7_mod (n : Nat) : roundup7 n % 7 = 0 := by simp [roundup7]

theorem le_roundup7 (n : Nat) : n ≤ roundup7 n := by unfold roundup7; omega

theorem roundup7_lt (n : Nat) : roundup7 n < n + 7 := by unfold roundup7; omega

/-- It is the least such multiple. -/
theorem roundup7_le {n m : Nat} (h : n ≤ m) (hm : m % 7 = 0) : roundup7 n ≤ m := by unfold roundup7; omega

/-- The padded size of an accepted payload is 7..259 (R93). -/
theorem padded_size_bounds {n : Nat} (h : n ≤ 252) : 7 ≤ roundup7 (encLen n) ∧ roundup7 (encLen n) ≤ 259 := by
  unfold roundup7 encLen
  omega

/-! ## The padded frame (R91, R93, R121) -/

theorem paddedFrame_length (t : Byte) (p : List Byte) : (paddedFrame t p).length = roundup7 (encLen p.length) := by
  have := le_roundup7 (encLen p.length)
  simp only [paddedFrame, frameBody, List.length_append, List.length_cons, List.length_replicate]
  unfold encLen at *
  omega

/-- The XOR of the whole padded frame is 0 (R120, R124). -/
theorem paddedFrame_xor (t : Byte) (p : List Byte) : xorBytes (paddedFrame t p) = 0#8 := by
  simp [paddedFrame]

/-! ## Counters and window words -/

theorem sat16_of_le {n : Nat} (h : n ≤ 65535) : (sat16 n).toNat = n := by
  simp only [sat16, BitVec.toNat_ofNat]
  omega

theorem allZero_append (xs ys : List Byte) : allZero (xs ++ ys) = (allZero xs && allZero ys) := by
  simp [allZero]

@[simp] theorem wordBytes_length (w : Word) : (wordBytes w).length = 4 := rfl

/-- The bytes of a window word put together again are the word (R65). -/
theorem wordOf_wordByte (w : Word) : wordOf (wordByte w 0) (wordByte w 1) (wordByte w 2) (wordByte w 3) = w := by
  apply BitVec.eq_of_getLsbD_eq
  intro i hi
  simp only [wordOf, zext32, wordByte, BitVec.getLsbD_or, BitVec.getLsbD_shiftLeft, BitVec.getLsbD_setWidth,
    BitVec.getLsbD_extractLsb']
  interval_cases i <;> simp

/-- Byte j of the word made of four bytes is the j-th of them (R65). -/
theorem wordOf_extract (b0 b1 b2 b3 : Byte) :
    (wordOf b0 b1 b2 b3).extractLsb' 0 8 = b0 ∧ (wordOf b0 b1 b2 b3).extractLsb' 8 8 = b1
      ∧ (wordOf b0 b1 b2 b3).extractLsb' 16 8 = b2 ∧ (wordOf b0 b1 b2 b3).extractLsb' 24 8 = b3 := by
  refine ⟨?_, ?_, ?_, ?_⟩ <;>
  · apply BitVec.eq_of_getLsbD_eq
    intro i hi
    interval_cases i <;> simp [wordOf, zext32]

/-! ## Read blocks (R66, R95) -/

@[simp] theorem unpackBlock_length (rb : Nat) (d : RxData) : (unpackBlock rb d).length = rb := by simp [unpackBlock]

/-- Byte i of a read block is on bits 8i+7 : 8i. -/
theorem unpackBlock_getElem (rb : Nat) (d : RxData) (i : Nat) (h : i < (unpackBlock rb d).length) :
    (unpackBlock rb d)[i] = d.extractLsb' (8 * i) 8 := by simp [unpackBlock]

/-! ## Records (R242) -/

/-- The fields of a record are what it was made of, and its other bits are 0. -/
theorem fields_extract (lo mid : Byte) (hi : BitVec 9) :
    (fields (zext32 lo) (zext32 mid) (zext32 hi)).extractLsb' 0 8 = lo
      ∧ (fields (zext32 lo) (zext32 mid) (zext32 hi)).extractLsb' 8 8 = mid
      ∧ (fields (zext32 lo) (zext32 mid) (zext32 hi)).extractLsb' 16 9 = hi
      ∧ (fields (zext32 lo) (zext32 mid) (zext32 hi)).extractLsb' 25 7 = 0#7 := by
  refine ⟨?_, ?_, ?_, ?_⟩ <;>
  · apply BitVec.eq_of_getLsbD_eq
    intro i hi
    interval_cases i <;> simp [fields, zext32]

theorem zext32_ofNat8 {n : Nat} (h : n < 256) : zext32 (BitVec.ofNat 8 n) = BitVec.ofNat 32 n := by
  apply BitVec.eq_of_toNat_eq
  simp only [zext32, BitVec.toNat_setWidth, BitVec.toNat_ofNat]
  omega

theorem zext32_ofNat9 {n : Nat} (h : n < 512) : zext32 (BitVec.ofNat 9 n) = BitVec.ofNat 32 n := by
  apply BitVec.eq_of_toNat_eq
  simp only [zext32, BitVec.toNat_setWidth, BitVec.toNat_ofNat]
  omega

end Sys2Proof.Machine
end

