-- ==== Sys2Proof/Laws/State.lean ====
section
/-! SUPPORT. Each named update of the state, field by field: what it sets and what it leaves alone. -/

namespace Sys2Proof.Machine

/-! ## The host port's answer -/

@[simp] theorem respond_params (r : BusResp) (s : State) : (s.respond r).params = s.params := rfl
@[simp] theorem respond_en (r : BusResp) (s : State) : (s.respond r).en = s.en := rfl
@[simp] theorem respond_ie (r : BusResp) (s : State) : (s.respond r).ie = s.ie := rfl
@[simp] theorem respond_cancel (r : BusResp) (s : State) : (s.respond r).cancel = s.cancel := rfl
@[simp] theorem respond_maxatt (r : BusResp) (s : State) : (s.respond r).maxatt = s.maxatt := rfl
@[simp] theorem respond_busy (r : BusResp) (s : State) : (s.respond r).busy = s.busy := rfl
@[simp] theorem respond_done (r : BusResp) (s : State) : (s.respond r).done = s.done := rfl
@[simp] theorem respond_toEmpty (r : BusResp) (s : State) : (s.respond r).toEmpty = s.toEmpty := rfl
@[simp] theorem respond_errcode (r : BusResp) (s : State) : (s.respond r).errcode = s.errcode := rfl
@[simp] theorem respond_cmd (r : BusResp) (s : State) : (s.respond r).cmd = s.cmd := rfl
@[simp] theorem respond_errinfo (r : BusResp) (s : State) : (s.respond r).errinfo = s.errinfo := rfl
@[simp] theorem respond_txtype (r : BusResp) (s : State) : (s.respond r).txtype = s.txtype := rfl
@[simp] theorem respond_plen (r : BusResp) (s : State) : (s.respond r).plen = s.plen := rfl
@[simp] theorem respond_flen (r : BusResp) (s : State) : (s.respond r).flen = s.flen := rfl
@[simp] theorem respond_dtype (r : BusResp) (s : State) : (s.respond r).dtype = s.dtype := rfl
@[simp] theorem respond_dlen (r : BusResp) (s : State) : (s.respond r).dlen = s.dlen := rfl
@[simp] theorem respond_dpar (r : BusResp) (s : State) : (s.respond r).dpar = s.dpar := rfl
@[simp] theorem respond_rxlen (r : BusResp) (s : State) : (s.respond r).rxlen = s.rxlen := rfl
@[simp] theorem respond_rxcnt (r : BusResp) (s : State) : (s.respond r).rxcnt = s.rxcnt := rfl
@[simp] theorem respond_rdcnt (r : BusResp) (s : State) : (s.respond r).rdcnt = s.rdcnt := rfl
@[simp] theorem respond_txcnt (r : BusResp) (s : State) : (s.respond r).txcnt = s.txcnt := rfl
@[simp] theorem respond_mem (r : BusResp) (s : State) : (s.respond r).mem = s.mem := rfl
@[simp] theorem respond_rab (r : BusResp) (s : State) : (s.respond r).rab = s.rab := rfl
@[simp] theorem respond_seq (r : BusResp) (s : State) : (s.respond r).seq = s.seq := rfl
@[simp] theorem respond_k (r : BusResp) (s : State) : (s.respond r).k = s.k := rfl
@[simp] theorem respond_nch (r : BusResp) (s : State) : (s.respond r).nch = s.nch := rfl
@[simp] theorem respond_att (r : BusResp) (s : State) : (s.respond r).att = s.att := rfl
@[simp] theorem respond_first (r : BusResp) (s : State) : (s.respond r).first = s.first := rfl
@[simp] theorem respond_resp (r : BusResp) (s : State) : (s.respond r).resp = r := rfl
@[simp] theorem respond_txPort (r : BusResp) (s : State) : (s.respond r).txPort = s.txPort := rfl
@[simp] theorem respond_rxReq (r : BusResp) (s : State) : (s.respond r).rxReq = s.rxReq := rfl
@[simp] theorem respond_env (r : BusResp) (s : State) : (s.respond r).env = s.env := rfl

/-! ## A store into the buffers -/

@[simp] theorem store_params (a : Nat) (bs : List Byte) (s : State) : (s.store a bs).params = s.params := rfl
@[simp] theorem store_en (a : Nat) (bs : List Byte) (s : State) : (s.store a bs).en = s.en := rfl
@[simp] theorem store_ie (a : Nat) (bs : List Byte) (s : State) : (s.store a bs).ie = s.ie := rfl
@[simp] theorem store_cancel (a : Nat) (bs : List Byte) (s : State) : (s.store a bs).cancel = s.cancel := rfl
@[simp] theorem store_maxatt (a : Nat) (bs : List Byte) (s : State) : (s.store a bs).maxatt = s.maxatt := rfl
@[simp] theorem store_busy (a : Nat) (bs : List Byte) (s : State) : (s.store a bs).busy = s.busy := rfl
@[simp] theorem store_done (a : Nat) (bs : List Byte) (s : State) : (s.store a bs).done = s.done := rfl
@[simp] theorem store_toEmpty (a : Nat) (bs : List Byte) (s : State) : (s.store a bs).toEmpty = s.toEmpty := rfl
@[simp] theorem store_errcode (a : Nat) (bs : List Byte) (s : State) : (s.store a bs).errcode = s.errcode := rfl
@[simp] theorem store_cmd (a : Nat) (bs : List Byte) (s : State) : (s.store a bs).cmd = s.cmd := rfl
@[simp] theorem store_errinfo (a : Nat) (bs : List Byte) (s : State) : (s.store a bs).errinfo = s.errinfo := rfl
@[simp] theorem store_txtype (a : Nat) (bs : List Byte) (s : State) : (s.store a bs).txtype = s.txtype := rfl
@[simp] theorem store_plen (a : Nat) (bs : List Byte) (s : State) : (s.store a bs).plen = s.plen := rfl
@[simp] theorem store_flen (a : Nat) (bs : List Byte) (s : State) : (s.store a bs).flen = s.flen := rfl
@[simp] theorem store_dtype (a : Nat) (bs : List Byte) (s : State) : (s.store a bs).dtype = s.dtype := rfl
@[simp] theorem store_dlen (a : Nat) (bs : List Byte) (s : State) : (s.store a bs).dlen = s.dlen := rfl
@[simp] theorem store_dpar (a : Nat) (bs : List Byte) (s : State) : (s.store a bs).dpar = s.dpar := rfl
@[simp] theorem store_rxlen (a : Nat) (bs : List Byte) (s : State) : (s.store a bs).rxlen = s.rxlen := rfl
@[simp] theorem store_rxcnt (a : Nat) (bs : List Byte) (s : State) : (s.store a bs).rxcnt = s.rxcnt := rfl
@[simp] theorem store_rdcnt (a : Nat) (bs : List Byte) (s : State) : (s.store a bs).rdcnt = s.rdcnt := rfl
@[simp] theorem store_txcnt (a : Nat) (bs : List Byte) (s : State) : (s.store a bs).txcnt = s.txcnt := rfl
@[simp] theorem store_mem (a : Nat) (bs : List Byte) (s : State) : (s.store a bs).mem = Memory.writeBytes s.mem a bs := rfl
@[simp] theorem store_rab (a : Nat) (bs : List Byte) (s : State) : (s.store a bs).rab = s.rab := rfl
@[simp] theorem store_seq (a : Nat) (bs : List Byte) (s : State) : (s.store a bs).seq = s.seq := rfl
@[simp] theorem store_k (a : Nat) (bs : List Byte) (s : State) : (s.store a bs).k = s.k := rfl
@[simp] theorem store_nch (a : Nat) (bs : List Byte) (s : State) : (s.store a bs).nch = s.nch := rfl
@[simp] theorem store_att (a : Nat) (bs : List Byte) (s : State) : (s.store a bs).att = s.att := rfl
@[simp] theorem store_first (a : Nat) (bs : List Byte) (s : State) : (s.store a bs).first = s.first := rfl
@[simp] theorem store_resp (a : Nat) (bs : List Byte) (s : State) : (s.store a bs).resp = s.resp := rfl
@[simp] theorem store_txPort (a : Nat) (bs : List Byte) (s : State) : (s.store a bs).txPort = s.txPort := rfl
@[simp] theorem store_rxReq (a : Nat) (bs : List Byte) (s : State) : (s.store a bs).rxReq = s.rxReq := rfl
@[simp] theorem store_env (a : Nat) (bs : List Byte) (s : State) : (s.store a bs).env = s.env := rfl

/-! ## Command acceptance (R212) -/

@[simp] theorem accept_params (w : Word) (s : State) : (accept w s).params = s.params := rfl
@[simp] theorem accept_en (w : Word) (s : State) : (accept w s).en = s.en := rfl
@[simp] theorem accept_ie (w : Word) (s : State) : (accept w s).ie = s.ie := rfl
@[simp] theorem accept_cancel (w : Word) (s : State) : (accept w s).cancel = s.cancel := rfl
@[simp] theorem accept_maxatt (w : Word) (s : State) : (accept w s).maxatt = s.maxatt := rfl
@[simp] theorem accept_busy (w : Word) (s : State) : (accept w s).busy = true := rfl
@[simp] theorem accept_done (w : Word) (s : State) : (accept w s).done = false := rfl
@[simp] theorem accept_toEmpty (w : Word) (s : State) : (accept w s).toEmpty = false := rfl
@[simp] theorem accept_errcode (w : Word) (s : State) : (accept w s).errcode = 0#4 := rfl
@[simp] theorem accept_cmd (w : Word) (s : State) : (accept w s).cmd = w := rfl
@[simp] theorem accept_errinfo (w : Word) (s : State) : (accept w s).errinfo = 0#32 := rfl
@[simp] theorem accept_txtype (w : Word) (s : State) : (accept w s).txtype = s.txtype := rfl
@[simp] theorem accept_plen (w : Word) (s : State) : (accept w s).plen = s.plen := rfl
@[simp] theorem accept_flen (w : Word) (s : State) : (accept w s).flen = s.flen := rfl
@[simp] theorem accept_dtype (w : Word) (s : State) : (accept w s).dtype = s.dtype := rfl
@[simp] theorem accept_dlen (w : Word) (s : State) : (accept w s).dlen = s.dlen := rfl
@[simp] theorem accept_dpar (w : Word) (s : State) : (accept w s).dpar = s.dpar := rfl
@[simp] theorem accept_rxlen (w : Word) (s : State) : (accept w s).rxlen = s.rxlen := rfl
@[simp] theorem accept_rxcnt (w : Word) (s : State) : (accept w s).rxcnt = s.rxcnt := rfl
@[simp] theorem accept_rdcnt (w : Word) (s : State) : (accept w s).rdcnt = s.rdcnt := rfl
@[simp] theorem accept_txcnt (w : Word) (s : State) : (accept w s).txcnt = s.txcnt := rfl
@[simp] theorem accept_mem (w : Word) (s : State) : (accept w s).mem = s.mem := rfl
@[simp] theorem accept_rab (w : Word) (s : State) : (accept w s).rab = s.rab := rfl
@[simp] theorem accept_seq (w : Word) (s : State) : (accept w s).seq = .exec := rfl
@[simp] theorem accept_k (w : Word) (s : State) : (accept w s).k = s.k := rfl
@[simp] theorem accept_nch (w : Word) (s : State) : (accept w s).nch = s.nch := rfl
@[simp] theorem accept_att (w : Word) (s : State) : (accept w s).att = s.att := rfl
@[simp] theorem accept_first (w : Word) (s : State) : (accept w s).first = s.first := rfl
@[simp] theorem accept_resp (w : Word) (s : State) : (accept w s).resp = s.resp := rfl
@[simp] theorem accept_txPort (w : Word) (s : State) : (accept w s).txPort = s.txPort := rfl
@[simp] theorem accept_rxReq (w : Word) (s : State) : (accept w s).rxReq = s.rxReq := rfl
@[simp] theorem accept_env (w : Word) (s : State) : (accept w s).env = s.env := rfl

/-! ## Completion (R241, R185) -/

@[simp] theorem finish_params (e : ErrKind) (info : Word) (s : State) : (finish e info s).params = s.params := rfl
@[simp] theorem finish_en (e : ErrKind) (info : Word) (s : State) : (finish e info s).en = s.en := rfl
@[simp] theorem finish_ie (e : ErrKind) (info : Word) (s : State) : (finish e info s).ie = s.ie := rfl
@[simp] theorem finish_cancel (e : ErrKind) (info : Word) (s : State) : (finish e info s).cancel = false := rfl
@[simp] theorem finish_maxatt (e : ErrKind) (info : Word) (s : State) : (finish e info s).maxatt = s.maxatt := rfl
@[simp] theorem finish_busy (e : ErrKind) (info : Word) (s : State) : (finish e info s).busy = false := rfl
@[simp] theorem finish_done (e : ErrKind) (info : Word) (s : State) : (finish e info s).done = true := rfl
@[simp] theorem finish_toEmpty (e : ErrKind) (info : Word) (s : State) : (finish e info s).toEmpty = (if e = .timeoutExceeded then s.first else s.toEmpty) := rfl
@[simp] theorem finish_errcode (e : ErrKind) (info : Word) (s : State) : (finish e info s).errcode = e.code := rfl
@[simp] theorem finish_cmd (e : ErrKind) (info : Word) (s : State) : (finish e info s).cmd = s.cmd := rfl
@[simp] theorem finish_errinfo (e : ErrKind) (info : Word) (s : State) : (finish e info s).errinfo = info := rfl
@[simp] theorem finish_txtype (e : ErrKind) (info : Word) (s : State) : (finish e info s).txtype = s.txtype := rfl
@[simp] theorem finish_plen (e : ErrKind) (info : Word) (s : State) : (finish e info s).plen = s.plen := rfl
@[simp] theorem finish_flen (e : ErrKind) (info : Word) (s : State) : (finish e info s).flen = s.flen := rfl
@[simp] theorem finish_dtype (e : ErrKind) (info : Word) (s : State) : (finish e info s).dtype = s.dtype := rfl
@[simp] theorem finish_dlen (e : ErrKind) (info : Word) (s : State) : (finish e info s).dlen = s.dlen := rfl
@[simp] theorem finish_dpar (e : ErrKind) (info : Word) (s : State) : (finish e info s).dpar = s.dpar := rfl
@[simp] theorem finish_rxlen (e : ErrKind) (info : Word) (s : State) : (finish e info s).rxlen = (if s.isGetframes ∧ e ≠ .ok then 0#11 else s.rxlen) := rfl
@[simp] theorem finish_rxcnt (e : ErrKind) (info : Word) (s : State) : (finish e info s).rxcnt = (if s.isGetframes ∧ e ≠ .ok then 0#9 else s.rxcnt) := rfl
@[simp] theorem finish_rdcnt (e : ErrKind) (info : Word) (s : State) : (finish e info s).rdcnt = s.rdcnt := rfl
@[simp] theorem finish_txcnt (e : ErrKind) (info : Word) (s : State) : (finish e info s).txcnt = s.txcnt := rfl
@[simp] theorem finish_mem (e : ErrKind) (info : Word) (s : State) : (finish e info s).mem = s.mem := rfl
@[simp] theorem finish_rab (e : ErrKind) (info : Word) (s : State) : (finish e info s).rab = (if s.isGetframes then [] else s.rab) := rfl
@[simp] theorem finish_seq (e : ErrKind) (info : Word) (s : State) : (finish e info s).seq = .idle := rfl
@[simp] theorem finish_k (e : ErrKind) (info : Word) (s : State) : (finish e info s).k = s.k := rfl
@[simp] theorem finish_nch (e : ErrKind) (info : Word) (s : State) : (finish e info s).nch = s.nch := rfl
@[simp] theorem finish_att (e : ErrKind) (info : Word) (s : State) : (finish e info s).att = s.att := rfl
@[simp] theorem finish_first (e : ErrKind) (info : Word) (s : State) : (finish e info s).first = s.first := rfl
@[simp] theorem finish_resp (e : ErrKind) (info : Word) (s : State) : (finish e info s).resp = s.resp := rfl
@[simp] theorem finish_txPort (e : ErrKind) (info : Word) (s : State) : (finish e info s).txPort = s.txPort := rfl
@[simp] theorem finish_rxReq (e : ErrKind) (info : Word) (s : State) : (finish e info s).rxReq = s.rxReq := rfl
@[simp] theorem finish_env (e : ErrKind) (info : Word) (s : State) : (finish e info s).env = s.env := rfl

/-! ## A chunk handed to the transport (R150) -/

@[simp] theorem issueChunk_params (s : State) : (issueChunk s).params = s.params := rfl
@[simp] theorem issueChunk_en (s : State) : (issueChunk s).en = s.en := rfl
@[simp] theorem issueChunk_ie (s : State) : (issueChunk s).ie = s.ie := rfl
@[simp] theorem issueChunk_cancel (s : State) : (issueChunk s).cancel = s.cancel := rfl
@[simp] theorem issueChunk_maxatt (s : State) : (issueChunk s).maxatt = s.maxatt := rfl
@[simp] theorem issueChunk_busy (s : State) : (issueChunk s).busy = s.busy := rfl
@[simp] theorem issueChunk_done (s : State) : (issueChunk s).done = s.done := rfl
@[simp] theorem issueChunk_toEmpty (s : State) : (issueChunk s).toEmpty = s.toEmpty := rfl
@[simp] theorem issueChunk_errcode (s : State) : (issueChunk s).errcode = s.errcode := rfl
@[simp] theorem issueChunk_cmd (s : State) : (issueChunk s).cmd = s.cmd := rfl
@[simp] theorem issueChunk_errinfo (s : State) : (issueChunk s).errinfo = s.errinfo := rfl
@[simp] theorem issueChunk_txtype (s : State) : (issueChunk s).txtype = s.txtype := rfl
@[simp] theorem issueChunk_plen (s : State) : (issueChunk s).plen = s.plen := rfl
@[simp] theorem issueChunk_flen (s : State) : (issueChunk s).flen = s.flen := rfl
@[simp] theorem issueChunk_dtype (s : State) : (issueChunk s).dtype = s.dtype := rfl
@[simp] theorem issueChunk_dlen (s : State) : (issueChunk s).dlen = s.dlen := rfl
@[simp] theorem issueChunk_dpar (s : State) : (issueChunk s).dpar = s.dpar := rfl
@[simp] theorem issueChunk_rxlen (s : State) : (issueChunk s).rxlen = s.rxlen := rfl
@[simp] theorem issueChunk_rxcnt (s : State) : (issueChunk s).rxcnt = s.rxcnt := rfl
@[simp] theorem issueChunk_rdcnt (s : State) : (issueChunk s).rdcnt = s.rdcnt := rfl
@[simp] theorem issueChunk_txcnt (s : State) : (issueChunk s).txcnt = s.txcnt := rfl
@[simp] theorem issueChunk_mem (s : State) : (issueChunk s).mem = s.mem := rfl
@[simp] theorem issueChunk_rab (s : State) : (issueChunk s).rab = s.rab := rfl
@[simp] theorem issueChunk_seq (s : State) : (issueChunk s).seq = .txw := rfl
@[simp] theorem issueChunk_k (s : State) : (issueChunk s).k = s.k := rfl
@[simp] theorem issueChunk_nch (s : State) : (issueChunk s).nch = s.nch := rfl
@[simp] theorem issueChunk_att (s : State) : (issueChunk s).att = s.att := rfl
@[simp] theorem issueChunk_first (s : State) : (issueChunk s).first = s.first := rfl
@[simp] theorem issueChunk_resp (s : State) : (issueChunk s).resp = s.resp := rfl
@[simp] theorem issueChunk_txPort (s : State) : (issueChunk s).txPort = some (txBlock s s.k) := rfl
@[simp] theorem issueChunk_rxReq (s : State) : (issueChunk s).rxReq = s.rxReq := rfl
@[simp] theorem issueChunk_env (s : State) : (issueChunk s).env = { s.env with sent := s.env.sent ++ [txBlock s s.k] } := rfl

/-! ## Reset (R280) -/

@[simp] theorem hardReset_params (s : State) : (hardReset s).params = s.params := rfl
@[simp] theorem hardReset_en (s : State) : (hardReset s).en = State.reset.en := rfl
@[simp] theorem hardReset_ie (s : State) : (hardReset s).ie = State.reset.ie := rfl
@[simp] theorem hardReset_cancel (s : State) : (hardReset s).cancel = State.reset.cancel := rfl
@[simp] theorem hardReset_maxatt (s : State) : (hardReset s).maxatt = State.reset.maxatt := rfl
@[simp] theorem hardReset_busy (s : State) : (hardReset s).busy = State.reset.busy := rfl
@[simp] theorem hardReset_done (s : State) : (hardReset s).done = State.reset.done := rfl
@[simp] theorem hardReset_toEmpty (s : State) : (hardReset s).toEmpty = State.reset.toEmpty := rfl
@[simp] theorem hardReset_errcode (s : State) : (hardReset s).errcode = State.reset.errcode := rfl
@[simp] theorem hardReset_cmd (s : State) : (hardReset s).cmd = State.reset.cmd := rfl
@[simp] theorem hardReset_errinfo (s : State) : (hardReset s).errinfo = State.reset.errinfo := rfl
@[simp] theorem hardReset_txtype (s : State) : (hardReset s).txtype = State.reset.txtype := rfl
@[simp] theorem hardReset_plen (s : State) : (hardReset s).plen = State.reset.plen := rfl
@[simp] theorem hardReset_flen (s : State) : (hardReset s).flen = State.reset.flen := rfl
@[simp] theorem hardReset_dtype (s : State) : (hardReset s).dtype = State.reset.dtype := rfl
@[simp] theorem hardReset_dlen (s : State) : (hardReset s).dlen = State.reset.dlen := rfl
@[simp] theorem hardReset_dpar (s : State) : (hardReset s).dpar = State.reset.dpar := rfl
@[simp] theorem hardReset_rxlen (s : State) : (hardReset s).rxlen = State.reset.rxlen := rfl
@[simp] theorem hardReset_rxcnt (s : State) : (hardReset s).rxcnt = State.reset.rxcnt := rfl
@[simp] theorem hardReset_rdcnt (s : State) : (hardReset s).rdcnt = State.reset.rdcnt := rfl
@[simp] theorem hardReset_txcnt (s : State) : (hardReset s).txcnt = State.reset.txcnt := rfl
@[simp] theorem hardReset_mem (s : State) : (hardReset s).mem = State.reset.mem := rfl
@[simp] theorem hardReset_rab (s : State) : (hardReset s).rab = State.reset.rab := rfl
@[simp] theorem hardReset_seq (s : State) : (hardReset s).seq = State.reset.seq := rfl
@[simp] theorem hardReset_k (s : State) : (hardReset s).k = State.reset.k := rfl
@[simp] theorem hardReset_nch (s : State) : (hardReset s).nch = State.reset.nch := rfl
@[simp] theorem hardReset_att (s : State) : (hardReset s).att = State.reset.att := rfl
@[simp] theorem hardReset_first (s : State) : (hardReset s).first = State.reset.first := rfl
@[simp] theorem hardReset_resp (s : State) : (hardReset s).resp = State.reset.resp := rfl
@[simp] theorem hardReset_txPort (s : State) : (hardReset s).txPort = State.reset.txPort := rfl
@[simp] theorem hardReset_rxReq (s : State) : (hardReset s).rxReq = State.reset.rxReq := rfl
@[simp] theorem hardReset_env (s : State) : (hardReset s).env = s.env := rfl

/-! ## The schedule's first entry taken off -/

@[simp] theorem scheduled_params (s : State) : (s.scheduled).params = s.params := rfl
@[simp] theorem scheduled_en (s : State) : (s.scheduled).en = s.en := rfl
@[simp] theorem scheduled_ie (s : State) : (s.scheduled).ie = s.ie := rfl
@[simp] theorem scheduled_cancel (s : State) : (s.scheduled).cancel = s.cancel := rfl
@[simp] theorem scheduled_maxatt (s : State) : (s.scheduled).maxatt = s.maxatt := rfl
@[simp] theorem scheduled_busy (s : State) : (s.scheduled).busy = s.busy := rfl
@[simp] theorem scheduled_done (s : State) : (s.scheduled).done = s.done := rfl
@[simp] theorem scheduled_toEmpty (s : State) : (s.scheduled).toEmpty = s.toEmpty := rfl
@[simp] theorem scheduled_errcode (s : State) : (s.scheduled).errcode = s.errcode := rfl
@[simp] theorem scheduled_cmd (s : State) : (s.scheduled).cmd = s.cmd := rfl
@[simp] theorem scheduled_errinfo (s : State) : (s.scheduled).errinfo = s.errinfo := rfl
@[simp] theorem scheduled_txtype (s : State) : (s.scheduled).txtype = s.txtype := rfl
@[simp] theorem scheduled_plen (s : State) : (s.scheduled).plen = s.plen := rfl
@[simp] theorem scheduled_flen (s : State) : (s.scheduled).flen = s.flen := rfl
@[simp] theorem scheduled_dtype (s : State) : (s.scheduled).dtype = s.dtype := rfl
@[simp] theorem scheduled_dlen (s : State) : (s.scheduled).dlen = s.dlen := rfl
@[simp] theorem scheduled_dpar (s : State) : (s.scheduled).dpar = s.dpar := rfl
@[simp] theorem scheduled_rxlen (s : State) : (s.scheduled).rxlen = s.rxlen := rfl
@[simp] theorem scheduled_rxcnt (s : State) : (s.scheduled).rxcnt = s.rxcnt := rfl
@[simp] theorem scheduled_rdcnt (s : State) : (s.scheduled).rdcnt = s.rdcnt := rfl
@[simp] theorem scheduled_txcnt (s : State) : (s.scheduled).txcnt = s.txcnt := rfl
@[simp] theorem scheduled_mem (s : State) : (s.scheduled).mem = s.mem := rfl
@[simp] theorem scheduled_rab (s : State) : (s.scheduled).rab = s.rab := rfl
@[simp] theorem scheduled_seq (s : State) : (s.scheduled).seq = s.seq := rfl
@[simp] theorem scheduled_k (s : State) : (s.scheduled).k = s.k := rfl
@[simp] theorem scheduled_nch (s : State) : (s.scheduled).nch = s.nch := rfl
@[simp] theorem scheduled_att (s : State) : (s.scheduled).att = s.att := rfl
@[simp] theorem scheduled_first (s : State) : (s.scheduled).first = s.first := rfl
@[simp] theorem scheduled_resp (s : State) : (s.scheduled).resp = s.resp := rfl
@[simp] theorem scheduled_txPort (s : State) : (s.scheduled).txPort = s.txPort := rfl
@[simp] theorem scheduled_rxReq (s : State) : (s.scheduled).rxReq = s.rxReq := rfl
@[simp] theorem scheduled_env (s : State) : (s.scheduled).env = { s.env with sched := s.env.sched.tail } := rfl

/-! ## The host's next operation taken off -/

@[simp] theorem hostTakes_params (s : State) : (s.hostTakes).params = s.params := rfl
@[simp] theorem hostTakes_en (s : State) : (s.hostTakes).en = s.en := rfl
@[simp] theorem hostTakes_ie (s : State) : (s.hostTakes).ie = s.ie := rfl
@[simp] theorem hostTakes_cancel (s : State) : (s.hostTakes).cancel = s.cancel := rfl
@[simp] theorem hostTakes_maxatt (s : State) : (s.hostTakes).maxatt = s.maxatt := rfl
@[simp] theorem hostTakes_busy (s : State) : (s.hostTakes).busy = s.busy := rfl
@[simp] theorem hostTakes_done (s : State) : (s.hostTakes).done = s.done := rfl
@[simp] theorem hostTakes_toEmpty (s : State) : (s.hostTakes).toEmpty = s.toEmpty := rfl
@[simp] theorem hostTakes_errcode (s : State) : (s.hostTakes).errcode = s.errcode := rfl
@[simp] theorem hostTakes_cmd (s : State) : (s.hostTakes).cmd = s.cmd := rfl
@[simp] theorem hostTakes_errinfo (s : State) : (s.hostTakes).errinfo = s.errinfo := rfl
@[simp] theorem hostTakes_txtype (s : State) : (s.hostTakes).txtype = s.txtype := rfl
@[simp] theorem hostTakes_plen (s : State) : (s.hostTakes).plen = s.plen := rfl
@[simp] theorem hostTakes_flen (s : State) : (s.hostTakes).flen = s.flen := rfl
@[simp] theorem hostTakes_dtype (s : State) : (s.hostTakes).dtype = s.dtype := rfl
@[simp] theorem hostTakes_dlen (s : State) : (s.hostTakes).dlen = s.dlen := rfl
@[simp] theorem hostTakes_dpar (s : State) : (s.hostTakes).dpar = s.dpar := rfl
@[simp] theorem hostTakes_rxlen (s : State) : (s.hostTakes).rxlen = s.rxlen := rfl
@[simp] theorem hostTakes_rxcnt (s : State) : (s.hostTakes).rxcnt = s.rxcnt := rfl
@[simp] theorem hostTakes_rdcnt (s : State) : (s.hostTakes).rdcnt = s.rdcnt := rfl
@[simp] theorem hostTakes_txcnt (s : State) : (s.hostTakes).txcnt = s.txcnt := rfl
@[simp] theorem hostTakes_mem (s : State) : (s.hostTakes).mem = s.mem := rfl
@[simp] theorem hostTakes_rab (s : State) : (s.hostTakes).rab = s.rab := rfl
@[simp] theorem hostTakes_seq (s : State) : (s.hostTakes).seq = s.seq := rfl
@[simp] theorem hostTakes_k (s : State) : (s.hostTakes).k = s.k := rfl
@[simp] theorem hostTakes_nch (s : State) : (s.hostTakes).nch = s.nch := rfl
@[simp] theorem hostTakes_att (s : State) : (s.hostTakes).att = s.att := rfl
@[simp] theorem hostTakes_first (s : State) : (s.hostTakes).first = s.first := rfl
@[simp] theorem hostTakes_resp (s : State) : (s.hostTakes).resp = s.resp := rfl
@[simp] theorem hostTakes_txPort (s : State) : (s.hostTakes).txPort = s.txPort := rfl
@[simp] theorem hostTakes_rxReq (s : State) : (s.hostTakes).rxReq = s.rxReq := rfl
@[simp] theorem hostTakes_env (s : State) : (s.hostTakes).env = { s.env with host := s.env.host.tail } := rfl

end Sys2Proof.Machine
end

