-- ==== Sys2Proof/Laws/Ops.lean ====
section
/-! SUPPORT. One lemma per shared operation that says everything it can do; callers cite it and do not unfold the
operation again. -/

namespace Sys2Proof.Machine

/-! ## The host port -/

theorem whenIdle_idle {s : State} {r : Result} (h : s.busy = false) : whenIdle s r = r := by simp [whenIdle, h]

theorem whenIdle_busy {s : State} {r : Result} (h : s.busy = true) : whenIdle s r = .next (s.respond .err) := by
  simp [whenIdle, h, busError]

/-- A gated access either is refused while busy or is the access. -/
theorem whenIdle_cases {s t : State} {r : Result} (h : whenIdle s r = .next t) :
    (s.busy = true ∧ t = s.respond .err) ∨ (s.busy = false ∧ r = .next t) := by
  cases hb : s.busy
  · rw [whenIdle_idle hb] at h
    exact .inr ⟨rfl, h⟩
  · rw [whenIdle_busy hb] at h
    injection h with h
    exact .inl ⟨rfl, h.symm⟩

/-- A window write's answer. -/
theorem windowWrite_cases {a : Nat} {d : Word} {s t : State} (h : windowWrite a d s = .next t) :
    (s.busy = true ∧ t = s.respond .err) ∨ (s.busy = false ∧ t = (s.store a (wordBytes d)).respond .ok) := by
  rcases whenIdle_cases h with ⟨hb, ht⟩ | ⟨hb, ht⟩
  · exact .inl ⟨hb, ht⟩
  · injection ht with ht
    exact .inr ⟨hb, ht.symm⟩

/-- A window read's answer. -/
theorem windowRead_cases {a : Nat} {s t : State} (h : windowRead a s = .next t) :
    (s.busy = true ∧ t = s.respond .err) ∨ (s.busy = false ∧ t = s.respond (.data (s.windowWord a))) := by
  rcases whenIdle_cases h with ⟨hb, ht⟩ | ⟨hb, ht⟩
  · exact .inl ⟨hb, ht⟩
  · injection ht with ht
    exact .inr ⟨hb, ht.symm⟩

/-! ## The send loop (R150) -/

/-- Byte 0 of the block of chunk k is BLOCK_ID, and bytes 1..7 are the chunk (R94). -/
theorem txBlock_bytes (s : State) (k : Nat) :
    (txBlock s k).extractLsb' 0 8 = s.params.blockId
      ∧ ∀ i < 7, (txBlock s k).extractLsb' (8 * (i + 1)) 8 = s.fbuf (7 * k + i) := by
  constructor
  · apply BitVec.eq_of_getLsbD_eq
    intro i hi
    interval_cases i <;> simp [txBlock, packBlock, State.fbufBytes, Memory.readBytes]
  · intro j hj
    apply BitVec.eq_of_getLsbD_eq
    intro i hi
    interval_cases j <;> interval_cases i <;>
      simp [txBlock, packBlock, State.fbufBytes, State.fbuf, Memory.readBytes, Nat.add_assoc, Config.chunk]

/-- NEXTCHUNK ends the command, is cancelled, hands over chunk K, or has no chunk K in FBUF. -/
theorem nextChunk_cases (s : State) :
    (s.k = s.nch ∧ nextChunk s = .next (finish .ok 0#32 s))
      ∨ (s.k ≠ s.nch ∧ s.cancel = true
          ∧ nextChunk s = .next (finish .cancelled (fields 0#32 s.opcodeWord (BitVec.ofNat 32 s.k)) s))
      ∨ (s.k ≠ s.nch ∧ s.cancel = false ∧ s.k < 37 ∧ nextChunk s = .next (issueChunk s))
      ∨ (s.k ≠ s.nch ∧ s.cancel = false ∧ 37 ≤ s.k ∧ nextChunk s = .fault .chunkIndex) := by
  unfold nextChunk finished Config.chunk Config.fbufBytes
  by_cases hk : s.k = s.nch
  · simp [hk]
  · cases hc : s.cancel
    · by_cases hb : s.k < 37
      · have h7 : 7 * s.k + 7 ≤ 260 := by omega
        simp [hk, hb, h7]
      · have h7 : ¬ 7 * s.k + 7 ≤ 260 := by omega
        have h8 : 37 ≤ s.k := by omega
        simp [hk, h7, h8]
    · simp [hk]

/-- SENDSTART refuses a closed session, then a length that is no multiple of 7, and else goes to NEXTCHUNK with K = 0. -/
theorem sendStart_cases (s : State) :
    (s.en = false ∧ sendStart s = .next (finish .notOpen (fields 0#32 s.opcodeWord 0#32) s))
      ∨ (s.en = true ∧ s.flen.toNat % 7 ≠ 0
          ∧ sendStart s = .next (finish .invalidFrameLength (zext32 s.flen) s))
      ∨ (s.en = true ∧ s.flen.toNat % 7 = 0
          ∧ sendStart s = nextChunk { s with nch := s.flen.toNat / 7, k := 0 }) := by
  unfold sendStart finished Config.chunk
  cases he : s.en
  · simp
  · by_cases hm : s.flen.toNat % 7 = 0 <;> simp [hm]

/-- SENDSTART always answers a next state: chunk 0 lies inside FBUF. -/
theorem sendStart_next (s : State) : ∃ t, sendStart s = .next t := by
  rcases sendStart_cases s with ⟨_, h⟩ | ⟨_, _, h⟩ | ⟨_, _, h⟩
  · exact ⟨_, h⟩
  · exact ⟨_, h⟩
  · rw [h]
    rcases nextChunk_cases { s with nch := s.flen.toNat / 7, k := 0 } with ⟨_, h⟩ | ⟨_, _, h⟩ | ⟨_, _, _, h⟩ | ⟨_, _, hk, _⟩
    · exact ⟨_, h⟩
    · exact ⟨_, h⟩
    · exact ⟨_, h⟩
    · simp at hk

/-! ## readOne (R171, R179) -/

/-- ATTEMPT is cancelled or issues one read. -/
theorem attempt_cases (s : State) :
    (s.cancel = true ∧ attempt s = finish .cancelled (rxInfo 0#32 5#32 s) s)
      ∨ (s.cancel = false
          ∧ attempt s
            = { s with att := s.att + 1, rdcnt := sat16 (s.rdcnt.toNat + 1), rxReq := true, seq := .rxw }) := by
  unfold attempt
  cases s.cancel <;> simp

/-! ## The reassembly loop (R179 to R184) -/

/-- CONSUME ends the command in one of three ways or goes round with the frame moved from RAB to RXQ. -/
theorem consume_cases (s : State) :
    (rabParity s ≠ rabParityByte s
        ∧ consume s = .ended (finish .parityMismatch
            (rxInfo (zext32 (rabParityByte s)) (zext32 (rabParity s)) s) (dropFrame s)))
      ∨ (rabParity s = rabParityByte s ∧ 1024 < s.rxlen.toNat + 2 + rabLen s
        ∧ consume s = .ended (finish .rxOverflow (rxInfo (zext32 s.rxlen) 0#32 s) (dropFrame s)))
      ∨ (rabParity s = rabParityByte s ∧ s.rxlen.toNat + 2 + rabLen s ≤ 1024
        ∧ allZero (s.rab.drop (2 + rabLen s)) = true ∧ consume s = .ended (finish .ok 0#32 (appendFrame s)))
      ∨ (rabParity s = rabParityByte s ∧ s.rxlen.toNat + 2 + rabLen s ≤ 1024
        ∧ allZero (s.rab.drop (2 + rabLen s)) = false ∧ consume s = .again (appendFrame s)) := by
  have hr : (appendFrame s).rab = s.rab.drop (2 + rabLen s) := rfl
  unfold consume rxqFull Config.rxqBytes
  by_cases hp : rabParity s = rabParityByte s
  · by_cases hf : 1024 < s.rxlen.toNat + 2 + rabLen s
    · simp [hp, hf]
    · have hf' : s.rxlen.toNat + 2 + rabLen s ≤ 1024 := by omega
      cases hz : allZero (s.rab.drop (2 + rabLen s)) <;> simp [hp, hf, hf', hr, hz]
  · simp [hp]

/-- A frame that CONSUME takes leaves RAB at least two bytes shorter. -/
theorem consume_again_shorter {s t : State} (h : consume s = .again t) (hl : 2 ≤ s.rab.length) :
    t.rab.length + 2 ≤ s.rab.length := by
  rcases consume_cases s with ⟨_, hc⟩ | ⟨_, _, hc⟩ | ⟨_, _, _, hc⟩ | ⟨_, _, _, hc⟩ <;> rw [hc] at h
  · cases h
  · cases h
  · cases h
  · injection h with h
    subst h
    simp only [appendFrame, List.length_drop]
    omega

/-- Any bound that is at least RAB's size gives the same FILL. -/
theorem fillWithin_enough {n : Nat} {s : State} (h : s.rab.length ≤ n) : fillWithin n s = fill s := by
  induction n using Nat.strongRecOn generalizing s with
  | ind n ih =>
    unfold fill
    cases n with
    | zero =>
      have : s.rab.length = 0 := by omega
      rw [this]
    | succ n =>
      cases hl : s.rab.length with
      | zero => simp [fillWithin, hl]
      | succ k =>
        simp only [fillWithin]
        split
        · rfl
        · split
          · rfl
          · split
            · rfl
            · cases hc : consume s with
              | ended t => rfl
              | again t =>
                have := consume_again_shorter hc (by omega)
                simp only
                rw [ih n (by omega) (by omega), ih k (by omega) (by omega)]

/-- FILL, as R179 writes it: it reads on with fewer than 2 bytes, refuses L < 2, reads on for the rest of the frame,
and else consumes the frame. -/
theorem fill_eq (s : State) :
    fill s =
      if s.rab.length < 2 then readOne s
      else if rabLen s < 2 then finish .invalidDeclaredLength (rxInfo (zext32 (s.rab.getD 1 0#8)) 0#32 s) s
      else if s.rab.length < 2 + rabLen s then readOne s
      else
        match consume s with
        | .ended t => t
        | .again t => fill t := by
  rw [← fillWithin_enough (n := s.rab.length + 1) (by omega)]
  simp only [fillWithin, Config.minDeclLen]
  split
  · rfl
  · split
    · rfl
    · split
      · rfl
      · cases hc : consume s with
        | ended t => rfl
        | again t =>
          have := consume_again_shorter hc (by omega)
          simp only
          rw [fillWithin_enough (by omega)]

/-- The state after the frames `fs` at RAB's front have gone to RXQ, with `rest` left in RAB. -/
def framesAppended (s : State) (fs : List (List Byte)) (rest : List Byte) : State :=
  { s with
    mem := Memory.writeBytes s.mem (rxqBase + s.rxlen.toNat) fs.flatten
    rab := rest
    rxlen := BitVec.ofNat 11 (s.rxlen.toNat + fs.flatten.length)
    rxcnt := s.rxcnt + BitVec.ofNat 9 fs.length }

/-- With a valid frame at RAB's front: the declared length is the frame's, the frame is what CONSUME takes, and its
parity agrees. -/
theorem rab_validFrame {s : State} {f q : List Byte} (hr : s.rab = f ++ q) (hf : validFrame f = true) :
    2 ≤ rabLen s ∧ f.length = 2 + rabLen s ∧ rabParity s = rabParityByte s := by
  match f, hf with
  | x :: y :: r, hf =>
    simp only [validFrame, Config.minDeclLen, Bool.and_eq_true, decide_eq_true_eq] at hf
    obtain ⟨⟨h2, hn⟩, hx⟩ := hf
    have hl : rabLen s = y.toNat := by simp [rabLen, hr]
    refine ⟨by omega, by simp only [List.length_cons]; omega, ?_⟩
    obtain ⟨p, z, rfl⟩ : ∃ p z, r = p ++ [z] := ⟨r.dropLast, r.getLast (by rintro rfl; simp at hn; omega),
      (List.dropLast_append_getLast _).symm⟩
    have hp : p.length + 1 = y.toNat := by simpa using hn
    have e : s.rab = (x :: y :: p) ++ (z :: q) := by simp [hr]
    have ht : s.rab.take (1 + rabLen s) = x :: y :: p := by
      rw [e, hl, ← hp]
      apply List.take_left'
      simp only [List.length_cons]; omega
    have hz : rabParityByte s = z := by
      rw [rabParityByte, e, hl, ← hp, List.getD_eq_getElem?_getD,
        List.getElem?_append_right (by simp only [List.length_cons]; omega)]
      have : 1 + (p.length + 1) - (x :: y :: p).length = 0 := by simp only [List.length_cons]; omega
      rw [this]
      rfl
    rw [hz, rabParity, ht]
    have : xorBytes (x :: y :: p) ^^^ z = 0#8 := by
      have : x :: y :: (p ++ [z]) = (x :: y :: p) ++ [z] := rfl
      rw [this, xorBytes_append] at hx
      simpa using hx
    simpa using BitVec.xor_eq_zero_iff.mp this

/-- FILL takes the whole good frames at RAB's front, each followed by a remainder that is not all zero, and looks at
what is left (R179, R181, R183, R184). -/
theorem fill_frames {s : State} {fs : List (List Byte)} {rest : List Byte} (hr : s.rab = fs.flatten ++ rest)
    (hv : ∀ f ∈ fs, validFrame f = true) (hq : s.rxlen.toNat + fs.flatten.length ≤ 1024)
    (hz : fs ≠ [] → allZero rest = false) : fill s = fill (framesAppended s fs rest) := by
  induction fs generalizing s with
  | nil =>
    congr 1
    cases s
    simp_all [framesAppended]
  | cons f fs ih =>
    have hr' : s.rab = f ++ (fs.flatten ++ rest) := by simpa using hr
    obtain ⟨h2, hf, hp⟩ := rab_validFrame hr' (hv f (by simp))
    have hd : s.rab.drop (2 + rabLen s) = fs.flatten ++ rest := by rw [hr', ← hf, List.drop_left]
    have hfr : rabFrame s = f := by rw [rabFrame, hr', ← hf, List.take_left]
    have hl : (f :: fs).flatten.length = 2 + rabLen s + fs.flatten.length := by simp [hf]
    have hnz : allZero (fs.flatten ++ rest) = false := by rw [allZero_append, hz (by simp), Bool.and_false]
    have hlen : s.rab.length = 2 + rabLen s + (fs.flatten ++ rest).length := by rw [hr', List.length_append, hf]
    have hc : consume s = .again (appendFrame s) := by
      rcases consume_cases s with ⟨h, _⟩ | ⟨_, h, _⟩ | ⟨_, _, h, _⟩ | ⟨_, _, _, h⟩
      · exact absurd hp h
      · omega
      · rw [hd, hnz] at h; cases h
      · exact h
    have e1 : ¬ s.rab.length < 2 := by omega
    have e2 : ¬ rabLen s < 2 := by omega
    have e3 : ¬ s.rab.length < 2 + rabLen s := by omega
    have hn : (appendFrame s).rxlen.toNat = s.rxlen.toNat + (2 + rabLen s) := by
      simp only [appendFrame, BitVec.toNat_ofNat]; omega
    rw [fill_eq s, if_neg e1, if_neg e2, if_neg e3, hc]
    simp only
    rw [ih (s := appendFrame s) (by simpa [appendFrame] using hd) (fun g hg => hv g (by simp [hg])) (by omega)
      (fun _ => hz (by simp))]
    congr 1
    simp only [framesAppended, hn]
    simp only [appendFrame, State.store, hfr, List.flatten_cons, List.length_append, List.length_cons, hf,
      memory_writeBytes_append, Nat.add_assoc, BitVec.ofNat_add, BitVec.add_assoc, BitVec.add_comm (1#9)]

/-! ## Whose turn it is -/

theorem mover_scheduled {s : State} {g : Agent} {rest : List Agent} (h : s.env.sched = g :: rest) : mover s = g := by
  simp [mover, h]

theorem mover_default {s : State} (h : s.env.sched = []) : mover s = nextAgent s := by simp [mover, h]

theorem step_eq (s : State) : step s = move (mover s) s.scheduled := rfl

end Sys2Proof.Machine
end

