-- ==== Sys2Proof/Laws/PerInstr.lean ====
section
/-! SUPPORT. Per instruction: the encoding of a well-formed instruction lies in a row of spec/opcode_table.json with
the instruction's mnemonic. -/

namespace Sys2Proof.Laws

/-- The encoding `e` matches a row of the opcode table with the mnemonic `m`. -/
def inTable (m : String) : Enc → Prop
  | .cmd w => ∃ r ∈ cmdTable, r.mnemonic = m ∧ w &&& r.mask = r.value
  | .bus t => ∃ r ∈ busTable, r.mnemonic = m ∧ t &&& r.mask = r.value

/-- The encoding of a well-formed instruction matches a row with its mnemonic (R96, R97). -/
def EncodeMatchesTable.Statement (i : Instr) : Prop := i.wf = true → inTable i.mnemonic (encode i)

/-- A register operation matches the row that fixes W and all of A. -/
theorem busOf_matches_register (w : Bool) (a : Addr) (d : Word) :
    busOf w a d &&& 0xFFF00000000#44 = (BitVec.ofBool w ++ a) ++ 0#32 := by
  have := busOf_and_mask w a d 0xFFF#12
  have h : (0xFFF#12 : BitVec 12) ++ 0#32 = 0xFFF00000000#44 := by decide
  rw [h] at this
  rw [this]
  have hf : (0xFFF#12 : BitVec 12) = BitVec.allOnes 12 := by decide
  rw [hf, BitVec.and_allOnes]

/-- A window operation matches the row that fixes W, the region and A[1:0]. -/
theorem busOf_matches_window (w : Bool) (a : Addr) (d : Word) :
    busOf w a d &&& 0xF0300000000#44 = ((BitVec.ofBool w ++ a) &&& 0xF03#12) ++ 0#32 := by
  have := busOf_and_mask w a d 0xF03#12
  have h : (0xF03#12 : BitVec 12) ++ 0#32 = 0xF0300000000#44 := by decide
  rwa [h] at this

/-- An RXQ operation matches the row that fixes W, A[10] and A[1:0]. -/
theorem busOf_matches_rxq (w : Bool) (a : Addr) (d : Word) :
    busOf w a d &&& 0xC0300000000#44 = ((BitVec.ofBool w ++ a) &&& 0xC03#12) ++ 0#32 := by
  have := busOf_and_mask w a d 0xC03#12
  have h : (0xC03#12 : BitVec 12) ++ 0#32 = 0xC0300000000#44 := by decide
  rwa [h] at this

/-- A CMD row. -/
theorem inTable_cmd {m : String} {w : Word} (r : CmdRow) (h : r ∈ cmdTable) (hm : r.mnemonic = m)
    (hw : w &&& r.mask = r.value) : inTable m (.cmd w) := ⟨r, h, hm, hw⟩

/-- A row of a register, for any data. -/
theorem inTable_register {m : String} {w : Bool} {a : Addr} (d : Word) (v : BusWord)
    (h : ⟨m, 0xFFF00000000#44, v⟩ ∈ busTable) (hv : (BitVec.ofBool w ++ a) ++ 0#32 = v) :
    inTable m (.bus (busOf w a d)) := ⟨_, h, rfl, by rw [busOf_matches_register]; exact hv⟩

/-- A row of a window, for any data. -/
theorem inTable_window {m : String} {w : Bool} {a : Addr} (d : Word) (v : BusWord)
    (h : ⟨m, 0xF0300000000#44, v⟩ ∈ busTable) (hv : ((BitVec.ofBool w ++ a) &&& 0xF03#12) ++ 0#32 = v) :
    inTable m (.bus (busOf w a d)) := ⟨_, h, rfl, by rw [busOf_matches_window]; exact hv⟩

/-- A row of RXQ, for any data. -/
theorem inTable_rxq {m : String} {w : Bool} {a : Addr} (d : Word) (v : BusWord)
    (h : ⟨m, 0xC0300000000#44, v⟩ ∈ busTable) (hv : ((BitVec.ofBool w ++ a) &&& 0xC03#12) ++ 0#32 = v) :
    inTable m (.bus (busOf w a d)) := ⟨_, h, rfl, by rw [busOf_matches_rxq]; exact hv⟩

namespace EncodeMatchesTable

/-- The row of a write to PBUF. -/
theorem pbuf_write_row : ∀ i : BitVec 6,
    ((BitVec.ofBool true ++ windowAddr 0x100#11 (i.setWidth 11)) &&& 0xF03#12) ++ 0#32 = 0x90000000000#44 := by
  decide

/-- The row of a read of PBUF. -/
theorem pbuf_read_row : ∀ i : BitVec 6,
    ((BitVec.ofBool false ++ windowAddr 0x100#11 (i.setWidth 11)) &&& 0xF03#12) ++ 0#32 = 0x10000000000#44 := by
  decide

/-- The row of a read of RXQ. -/
theorem rxq_read_row : ∀ i : BitVec 8,
    ((BitVec.ofBool false ++ windowAddr 0x400#11 (i.setWidth 11)) &&& 0xC03#12) ++ 0#32 = 0x40000000000#44 := by
  decide

/-- The two rows of a write to FBUF: words 0..63 and word 64. -/
theorem fbuf_write_rows : ∀ i : BitVec 7, fbufWordIndex i = true →
    ((BitVec.ofBool true ++ windowAddr 0x200#11 (i.setWidth 11)) &&& 0xF03#12) ++ 0#32 = 0xA0000000000#44
      ∨ (BitVec.ofBool true ++ windowAddr 0x200#11 (i.setWidth 11)) ++ 0#32 = 0xB0000000000#44 := by
  decide

/-- The two rows of a read of FBUF. -/
theorem fbuf_read_rows : ∀ i : BitVec 7, fbufWordIndex i = true →
    ((BitVec.ofBool false ++ windowAddr 0x200#11 (i.setWidth 11)) &&& 0xF03#12) ++ 0#32 = 0x20000000000#44
      ∨ (BitVec.ofBool false ++ windowAddr 0x200#11 (i.setWidth 11)) ++ 0#32 = 0x30000000000#44 := by
  decide

theorem nop : Statement .nop := fun _ =>
  inTable_cmd ⟨"NOP", 0xFFFFFFFF#32, 0x00000000#32⟩ (by decide) rfl (by decide)

theorem encode : Statement .encode := fun _ =>
  inTable_cmd ⟨"ENCODE", 0xFFFFFFFF#32, 0x00000001#32⟩ (by decide) rfl (by decide)

theorem send : Statement .send := fun _ =>
  inTable_cmd ⟨"SEND", 0xFFFFFFFF#32, 0x00000002#32⟩ (by decide) rfl (by decide)

theorem encsend : Statement .encsend := fun _ =>
  inTable_cmd ⟨"ENCSEND", 0xFFFFFFFF#32, 0x00000003#32⟩ (by decide) rfl (by decide)

theorem decode : Statement .decode := fun _ =>
  inTable_cmd ⟨"DECODE", 0xFFFFFFFF#32, 0x00000004#32⟩ (by decide) rfl (by decide)

theorem getframes : Statement .getframes := fun _ =>
  inTable_cmd ⟨"GETFRAMES", 0xFFFFFFFF#32, 0x00000005#32⟩ (by decide) rfl (by decide)

theorem wrCtrl (d : Word) : Statement (.wrCtrl d) := fun _ =>
  inTable_register (m := "WR_CTRL") d 0x80000000000#44 (by decide) (by decide)

theorem rdCtrl : Statement .rdCtrl := fun _ =>
  inTable_register (m := "RD_CTRL") _ 0x00000000000#44 (by decide) (by decide)

theorem wrStatus (d : Word) : Statement (.wrStatus d) := fun _ =>
  inTable_register (m := "WR_STATUS") d 0x80400000000#44 (by decide) (by decide)

theorem rdStatus : Statement .rdStatus := fun _ =>
  inTable_register (m := "RD_STATUS") _ 0x00400000000#44 (by decide) (by decide)

theorem wrCmd (d : Word) : Statement (.wrCmd d) := fun _ =>
  inTable_register (m := "WR_CMD") d 0x80800000000#44 (by decide) (by decide)

theorem rdCmd : Statement .rdCmd := fun _ =>
  inTable_register (m := "RD_CMD") _ 0x00800000000#44 (by decide) (by decide)

theorem rdErrinfo : Statement .rdErrinfo := fun _ =>
  inTable_register (m := "RD_ERRINFO") _ 0x00C00000000#44 (by decide) (by decide)

theorem rdParam : Statement .rdParam := fun _ =>
  inTable_register (m := "RD_PARAM") _ 0x01000000000#44 (by decide) (by decide)

theorem wrTxtype (d : Word) : Statement (.wrTxtype d) := fun _ =>
  inTable_register (m := "WR_TXTYPE") d 0x81400000000#44 (by decide) (by decide)

theorem rdTxtype : Statement .rdTxtype := fun _ =>
  inTable_register (m := "RD_TXTYPE") _ 0x01400000000#44 (by decide) (by decide)

theorem wrPlen (d : Word) : Statement (.wrPlen d) := fun _ =>
  inTable_register (m := "WR_PLEN") d 0x81800000000#44 (by decide) (by decide)

theorem rdPlen : Statement .rdPlen := fun _ =>
  inTable_register (m := "RD_PLEN") _ 0x01800000000#44 (by decide) (by decide)

theorem wrFlen (d : Word) : Statement (.wrFlen d) := fun _ =>
  inTable_register (m := "WR_FLEN") d 0x81C00000000#44 (by decide) (by decide)

theorem rdFlen : Statement .rdFlen := fun _ =>
  inTable_register (m := "RD_FLEN") _ 0x01C00000000#44 (by decide) (by decide)

theorem rdDres : Statement .rdDres := fun _ =>
  inTable_register (m := "RD_DRES") _ 0x02000000000#44 (by decide) (by decide)

theorem rdRxlen : Statement .rdRxlen := fun _ =>
  inTable_register (m := "RD_RXLEN") _ 0x02400000000#44 (by decide) (by decide)

theorem rdRxcnt : Statement .rdRxcnt := fun _ =>
  inTable_register (m := "RD_RXCNT") _ 0x02800000000#44 (by decide) (by decide)

theorem rdCnt : Statement .rdCnt := fun _ =>
  inTable_register (m := "RD_CNT") _ 0x02C00000000#44 (by decide) (by decide)

theorem wrPbuf (i : BitVec 6) (d : Word) : Statement (.wrPbuf i d) := fun _ =>
  inTable_window (m := "WR_PBUF") d 0x90000000000#44 (by decide) (pbuf_write_row i)

theorem rdPbuf (i : BitVec 6) : Statement (.rdPbuf i) := fun _ =>
  inTable_window (m := "RD_PBUF") _ 0x10000000000#44 (by decide) (pbuf_read_row i)

theorem wrFbuf (i : BitVec 7) (d : Word) : Statement (.wrFbuf i d) := fun h => by
  rcases fbuf_write_rows i h with hv | hv
  · exact inTable_window (m := "WR_FBUF") d 0xA0000000000#44 (by decide) hv
  · exact inTable_register (m := "WR_FBUF") d 0xB0000000000#44 (by decide) hv

theorem rdFbuf (i : BitVec 7) : Statement (.rdFbuf i) := fun h => by
  rcases fbuf_read_rows i h with hv | hv
  · exact inTable_window (m := "RD_FBUF") _ 0x20000000000#44 (by decide) hv
  · exact inTable_register (m := "RD_FBUF") _ 0x30000000000#44 (by decide) hv

theorem rdRxq (i : BitVec 8) : Statement (.rdRxq i) := fun _ =>
  inTable_rxq (m := "RD_RXQ") _ 0x40000000000#44 (by decide) (rxq_read_row i)

/-- The six register rows and the window row of WR_RO cover every read-only location. -/
theorem readOnly_rows : ∀ a : Addr, readOnlyAddr a = true →
    ((BitVec.ofBool true ++ a) &&& 0xC03#12) ++ 0#32 = 0xC0000000000#44
      ∨ a = 0x00C#11 ∨ a = 0x010#11 ∨ a = 0x020#11 ∨ a = 0x024#11 ∨ a = 0x028#11 ∨ a = 0x02C#11 := by
  decide

theorem wrRo (a : Addr) (d : Word) : Statement (.wrRo a d) := fun h => by
  rcases readOnly_rows a h with hv | rfl | rfl | rfl | rfl | rfl | rfl
  · exact inTable_rxq (m := "WR_RO") d 0xC0000000000#44 (by decide) hv
  · exact inTable_register (m := "WR_RO") d 0x80C00000000#44 (by decide) (by decide)
  · exact inTable_register (m := "WR_RO") d 0x81000000000#44 (by decide) (by decide)
  · exact inTable_register (m := "WR_RO") d 0x82000000000#44 (by decide) (by decide)
  · exact inTable_register (m := "WR_RO") d 0x82400000000#44 (by decide) (by decide)
  · exact inTable_register (m := "WR_RO") d 0x82800000000#44 (by decide) (by decide)
  · exact inTable_register (m := "WR_RO") d 0x82C00000000#44 (by decide) (by decide)

end EncodeMatchesTable

end Sys2Proof.Laws
end

