-- ==== Sys2Proof/Machine/HostProgram.lean ====
section
/-! DEFINITION. The pseudo-instructions of host programs as lists of host operations (spec/30_encoding.md R102). WAIT
is `HostOp.wait`; none of them is a bus transaction of its own. -/

namespace Sys2Proof.Machine

/-- The host operation that performs a bus instruction. A command word is no bus transaction: the host issues it with
`command`. -/
def hostOp (i : Instr) : List HostOp :=
  match encode i with
  | .bus t => [.access t]
  | .cmd _ => []

/-- `CMD <mnemonic>`: `WR CMD, <the CMD word>` (R101). -/
def command (i : Instr) : List HostOp :=
  match encode i with
  | .cmd w => hostOp (.wrCmd w)
  | .bus _ => []

/-- The window words of a byte sequence, missing bytes 0, each with its index (R102); `n` words from index `i`. -/
def windowWords (bs : List Byte) : Nat → Nat → List (Nat × Word)
  | _, 0 => []
  | i, n + 1 =>
    (i, wordOf (bs.getD (4 * i) 0#8) (bs.getD (4 * i + 1) 0#8) (bs.getD (4 * i + 2) 0#8) (bs.getD (4 * i + 3) 0#8))
      :: windowWords bs (i + 1) n

/-- The number of window words that n bytes take, ceil(n / 4) (R102). -/
def wordCount (n : Nat) : Nat := (n + 3) / 4

/-- `LDP b0, ..., b(n-1)`, for n ≤ 255 (R102). -/
def ldp (bs : List Byte) : List HostOp :=
  ((windowWords bs 0 (wordCount bs.length)).flatMap fun p => hostOp (.wrPbuf (BitVec.ofNat 6 p.1) p.2))
    ++ hostOp (.wrPlen (BitVec.ofNat 32 bs.length))

/-- `LDF b0, ..., b(n-1)`, for n ≤ 260 (R102). -/
def ldf (bs : List Byte) : List HostOp :=
  ((windowWords bs 0 (wordCount bs.length)).flatMap fun p => hostOp (.wrFbuf (BitVec.ofNat 7 p.1) p.2))
    ++ hostOp (.wrFlen (BitVec.ofNat 32 bs.length))

/-- `ENC t, b0, ..., b(n-1)` (R102). -/
def enc (t : Byte) (bs : List Byte) : List HostOp :=
  hostOp (.wrTxtype (zext32 t)) ++ ldp bs ++ command .encode ++ [.wait]

/-- A host program's run has ended: the host has issued its last operation and no command is in progress (R294). -/
def runEnded (s : State) : Bool := s.env.host.isEmpty && !s.busy

end Sys2Proof.Machine
end

