-- ==== Sys2Proof/Tests/Slice0.lean ====
section
/-! SUPPORT. The model's own tests: ill-formed terms, words written out from spec/30_encoding.md R96 and R97, single
steps from the vectors of spec/95_test_vectors.md, and for every statement with hypotheses a witness that meets them. -/

namespace Sys2Proof.Tests

open Sys2Proof Sys2Proof.Machine

/-! ## Small states -/

/-- The instance of the vectors: RB = 8, BID = 0xB1. -/
def inst : Params := ⟨8, 0xB1#8⟩

/-- Reset, with that instance. -/
def base : State := { State.reset with params := inst }

/-- The same with CTRL = 0x00001001. -/
def opened : State := { base with en := true }

/-- A state whose buffers hold `bs` from the bus address `a`. -/
def loaded (a : Nat) (bs : List Byte) (s : State) : State := s.store a bs

/-- The host is about to do `ops`. -/
def hosting (ops : List HostOp) (s : State) : State :=
  { s with env := { s.env with host := ops, sched := [.host] } }

/-- The host is about to issue the transaction `t`. -/
def issuing (t : BusWord) (s : State) : State := hosting [.access t] s

/-- What a predicate says of a next state; false of a stop. -/
def next (r : Result) (p : State → Bool) : Bool :=
  match r with
  | .next t => p t
  | .fault _ => false
  | .refused _ => false

/-- The S1 frame in FBUF. -/
def frame7 : List Byte := [0xEA, 0x03, 0x78, 0x0A, 0x9B, 0x00, 0x00]

/-- The S2 frame in FBUF. -/
def frame14 : List Byte := [0xEA, 0x08, 0x78, 0x08, 0x05, 0x01, 0x60, 0x61, 0x62, 0xF5, 0x00, 0x00, 0x00, 0x00]

/-- The frame of S3. -/
def ack : List Byte := [0xED, 0x03, 0x78, 0x00, 0x96]

/-- A SEND or ENCSEND (by its opcode) of the first `7 n` bytes of FBUF with chunk k outstanding. -/
def sending (cmd : Word) (n k : Nat) (s : State) : State :=
  let u := { accept cmd s with en := true, flen := BitVec.ofNat 9 (7 * n), k := k, nch := n, seq := .txw }
  { u with txPort := some (txBlock u k) }

/-- A GETFRAMES with RAB as given and attempt `att` outstanding. -/
def reading (r : List Byte) (att : Nat) (s : State) : State :=
  { accept 5#32 s with en := true, rab := r, att := att, seq := .rxw, rxReq := true }

/-- The same in the backoff after attempt `att`. -/
def backing (r : List Byte) (att : Nat) (s : State) : State :=
  { accept 5#32 s with en := true, rab := r, att := att, seq := .bkoff }

/-- The TX transport is about to answer. -/
def txGives (a : TxAck) (s : State) : State := { s with env := { s.env with tx := [a], sched := [.tx] } }

/-- The RX transport is about to answer. -/
def rxGives (a : RxAck) (s : State) : State := { s with env := { s.env with rx := [a], sched := [.rx] } }

/-- The RX data signals that carry the bytes `b`, byte 0 lowest. -/
def rxLines : List Byte → RxData
  | [] => 0#256
  | b :: bs => (rxLines bs <<< 8) ||| b.setWidth 256

/-- A read block without an error. -/
def block (b : List Byte) : RxAck := ⟨false, 0x55#8, rxLines b⟩

/-- n bytes of zero. -/
def zeros (n : Nat) : List Byte := List.replicate n 0#8

/-! ## WellFormed -/

theorem test_wf_wrFbuf_65_refused : (Instr.wrFbuf 65#7 0#32).wf = false ∧ (Instr.wrFbuf 64#7 0#32).wf = true := by decide
theorem test_wf_rdFbuf_65_refused : (Instr.rdFbuf 65#7).wf = false ∧ (Instr.rdFbuf 64#7).wf = true := by decide
theorem test_wf_wrRo_refused :
    (Instr.wrRo 0x000#11 0#32).wf = false ∧ (Instr.wrRo 0x030#11 0#32).wf = false
      ∧ (Instr.wrRo 0x402#11 0#32).wf = false ∧ (Instr.wrRo 0x02C#11 0#32).wf = true := by decide

/-! ## Decode: every row's word, W:A in three digits and D in eight (R97), or the CMD word (R96) -/

theorem test_decode_commands :
    decodeCmd 0x00000000#32 = .ok .nop ∧ decodeCmd 0x00000001#32 = .ok .encode
      ∧ decodeCmd 0x00000002#32 = .ok .send ∧ decodeCmd 0x00000003#32 = .ok .encsend
      ∧ decodeCmd 0x00000004#32 = .ok .decode ∧ decodeCmd 0x00000005#32 = .ok .getframes := by decide
theorem test_decode_control_writes :
    decodeBus 0x80012345678#44 = .ok (.wrCtrl 0x12345678#32) ∧ decodeBus 0x80400000002#44 = .ok (.wrStatus 2#32)
      ∧ decodeBus 0x80800000105#44 = .ok (.wrCmd 0x105#32) := by decide
theorem test_decode_control_reads :
    decodeBus 0x00000000000#44 = .ok .rdCtrl ∧ decodeBus 0x00400000000#44 = .ok .rdStatus
      ∧ decodeBus 0x00800000000#44 = .ok .rdCmd ∧ decodeBus 0x00C00000000#44 = .ok .rdErrinfo
      ∧ decodeBus 0x01000000000#44 = .ok .rdParam ∧ decodeBus 0x02C00000000#44 = .ok .rdCnt := by decide
theorem test_decode_operand_writes :
    decodeBus 0x814000000EA#44 = .ok (.wrTxtype 0xEA#32) ∧ decodeBus 0x81800000002#44 = .ok (.wrPlen 2#32)
      ∧ decodeBus 0x81C00000104#44 = .ok (.wrFlen 260#32) := by decide
theorem test_decode_operand_reads :
    decodeBus 0x01400000000#44 = .ok .rdTxtype ∧ decodeBus 0x01800000000#44 = .ok .rdPlen
      ∧ decodeBus 0x01C00000000#44 = .ok .rdFlen ∧ decodeBus 0x02000000000#44 = .ok .rdDres
      ∧ decodeBus 0x02400000000#44 = .ok .rdRxlen ∧ decodeBus 0x02800000000#44 = .ok .rdRxcnt := by decide
theorem test_decode_pbuf :
    decodeBus 0x90000000A78#44 = .ok (.wrPbuf 0#6 0xA78#32) ∧ decodeBus 0x9FC00000001#44 = .ok (.wrPbuf 63#6 1#32)
      ∧ decodeBus 0x1FC00000000#44 = .ok (.rdPbuf 63#6) := by decide
theorem test_decode_fbuf :
    decodeBus 0xAFC00000001#44 = .ok (.wrFbuf 63#7 1#32) ∧ decodeBus 0xB0044332211#44 = .ok (.wrFbuf 64#7 0x44332211#32)
      ∧ decodeBus 0x20400000000#44 = .ok (.rdFbuf 1#7) ∧ decodeBus 0x30000000000#44 = .ok (.rdFbuf 64#7) := by decide
theorem test_decode_rxq :
    decodeBus 0x40400000000#44 = .ok (.rdRxq 1#8) ∧ decodeBus 0x7FC00000000#44 = .ok (.rdRxq 255#8) := by decide
theorem test_decode_read_only_writes :
    decodeBus 0x80C00000001#44 = .ok (.wrRo 0x00C#11 1#32) ∧ decodeBus 0x81000000001#44 = .ok (.wrRo 0x010#11 1#32)
      ∧ decodeBus 0x82000000001#44 = .ok (.wrRo 0x020#11 1#32) ∧ decodeBus 0x82400000001#44 = .ok (.wrRo 0x024#11 1#32)
      ∧ decodeBus 0x82800000001#44 = .ok (.wrRo 0x028#11 1#32) ∧ decodeBus 0x82C00000001#44 = .ok (.wrRo 0x02C#11 1#32)
      ∧ decodeBus 0xC0000000001#44 = .ok (.wrRo 0x400#11 1#32)
      ∧ decodeBus 0xFFC00000001#44 = .ok (.wrRo 0x7FC#11 1#32) := by decide
theorem test_decode_rejects_by_name :
    decodeCmd 6#32 = .error .unlistedOpcode ∧ decodeCmd 0x105#32 = .error .reservedCommandBits
      ∧ decodeBus 0x00200000000#44 = .error .misaligned ∧ decodeBus 0x80100000000#44 = .error .misaligned
      ∧ decodeBus 0x03000000000#44 = .error .reservedAddress
      ∧ decodeBus 0x8FC00000000#44 = .error .reservedAddress ∧ decodeBus 0xB0400000000#44 = .error .reservedAddress
      ∧ decodeBus 0xBFC00000000#44 = .error .reservedAddress := by decide
theorem test_decodeTableWord :
    decodeTableWord 32 5 = some .getframes ∧ decodeTableWord 32 0x105 = none
      ∧ decodeTableWord 48 0x814000000EA = some (.wrTxtype 0xEA#32) ∧ decodeTableWord 48 0x100000000000 = none := by decide

/-- The listing of P1 lines 1 to 5 (spec/95_test_vectors.md). -/
theorem test_listing_p1 :
    hostOp (.wrCtrl 0x1003#32) ++ hostOp (.wrTxtype 0xEA#32) ++ ldp [0x78, 0x0A] ++ command .encsend
      = [.access 0x80000001003#44, .access 0x814000000EA#44, .access 0x90000000A78#44, .access 0x81800000002#44,
          .access 0x80800000003#44] := by decide

/-! ## One step of each instruction, with the results of spec/95_test_vectors.md -/

/-- The answer of a read, or nothing. -/
def answer (r : Result) : Option BusResp :=
  match r with
  | .next t => some t.resp
  | .fault _ => none
  | .refused _ => none

/-- V-CTL-1. -/
theorem test_nop : next (exec .nop (accept 0#32 base)) (fun t => t.statusWord = 0x002#32 ∧ t.errinfo = 0#32) := by decide
/-- V-ENC-1. -/
theorem test_encode :
    next (exec .encode (loaded 0x100 [0x78, 0x0A] { accept 1#32 base with txtype := 0xEA#8, plen := 2#8 }))
      (fun t => t.fbufBytes 0 7 = frame7 ∧ t.flen = 7#9 ∧ t.statusWord = 0x002#32) := by decide
/-- V-ENC-14. -/
theorem test_encode_too_long :
    next (exec .encode { accept 1#32 base with plen := 253#8 })
      (fun t => t.statusWord = 0x80A#32 ∧ t.errinfo = 0xFD#32 ∧ t.flen = 0#9) := by decide
/-- V-DEC-5. -/
theorem test_decode :
    next (exec .decode (loaded 0x200 (ack ++ zeros 2) { accept 4#32 base with flen := 7#9 }))
      (fun t => t.dresWord = 0x009603ED#32 ∧ t.statusWord = 0x002#32) := by decide
/-- V-DEC-6. -/
theorem test_decode_bad_parity :
    next (exec .decode (loaded 0x200 [0xED, 0x03, 0x78, 0x00, 0xEE] { accept 4#32 base with flen := 7#9 }))
      (fun t => t.errinfo = 0x000096EE#32 ∧ t.statusWord = 0x30A#32 ∧ t.dresWord = 0#32) := by decide
/-- V-SND-2, its first step. -/
theorem test_send :
    next (exec .send (loaded 0x200 frame7 { accept 2#32 opened with flen := 7#9 }))
      (fun t => t.txPort = some 0x00009B0A7803EAB1#64 ∧ t.seq = .txw) := by decide
/-- V-SND-6, its last step. -/
theorem test_send_error :
    next (step (txGives ⟨true, 0x42#8⟩ (sending 2#32 2 1 (loaded 0x200 frame14 { base with txcnt := 1#16 }))))
      (fun t => t.errinfo = 0x00010242#32 ∧ t.cntWord = 0x00010000#32 ∧ t.statusWord = 0x50A#32) := by decide
/-- V-ES-2. -/
theorem test_encsend_closed :
    next (exec .encsend (loaded 0x100 [0x78, 0x0A] { accept 3#32 base with txtype := 0xEA#8, plen := 2#8 }))
      (fun t => t.errinfo = 0x300#32 ∧ t.fbufBytes 0 7 = frame7 ∧ t.flen = 7#9) := by decide
/-- V-ES-5. -/
theorem test_encsend_too_long :
    next (exec .encsend { accept 3#32 base with plen := 253#8 }) (fun t => t.statusWord = 0x80A#32) := by decide
/-- V-GF-1, from its read. -/
theorem test_getframes_one_read :
    next (step (rxGives (block (ack ++ zeros 3)) { reading [] 1 base with first := true, rdcnt := 1#16 }))
      (fun t => t.rxqBytes 5 = ack ∧ t.rxlen = 5#11 ∧ t.rxcnt = 1#9 ∧ t.statusWord = 0x002#32
        ∧ t.cntWord = 1#32) := by decide
/-- V-GF-1's block as the 64 data signals of R95, byte i on bits 8i+7 : 8i, written out; a signal above them is not
looked at. -/
theorem test_rx_data_bits :
    unpackBlock 8 0x00000096007803ED#256 = ack ++ zeros 3
      ∧ unpackBlock 8 0xFF00000096007803ED#256 = ack ++ zeros 3 ∧ unpackBlock 1 0x02EA#256 = [0xEA#8] := by decide
/-- V-GF-12, from its third read. -/
theorem test_getframes_timeout :
    next (step (rxGives (block (zeros 8)) { reading [] 3 base with first := true, maxatt := 3#8 }))
      (fun t => t.errinfo = 0x00000503#32 ∧ t.statusWord = 0x40E#32) := by decide
/-- V-CTL-7 and V-CTL-8. -/
theorem test_wrCtrl_idle :
    next (exec (.wrCtrl 0x00000001#32) base) (fun t => t.ctrlWord = 0x00000101#32)
      ∧ next (exec (.wrCtrl 0x00001005#32) base) (fun t => t.ctrlWord = 0x00001001#32) := by decide
/-- V-CTL-9. -/
theorem test_wrCtrl_busy :
    next (exec (.wrCtrl 0x0000FF06#32) (sending 2#32 1 0 base)) (fun t => t.ctrlWord = 0x00001007#32) := by decide
/-- V-CTL-5. -/
theorem test_rdCtrl : answer (exec .rdCtrl base) = some (.data 0x00001000#32) := by decide
/-- V-CTL-11 and V-CTL-12, the record of V-CTL-2. -/
theorem test_wrStatus :
    next (exec (.wrStatus 0x2#32) { base with done := true, ie := true }) (fun t => t.statusWord = 0#32 ∧ t.irq = false)
      ∧ next (exec (.wrStatus 0xFFD#32) { base with done := true, errcode := 11#4 })
          (fun t => t.statusWord = 0xB0A#32) := by decide
/-- V-CTL-26. -/
theorem test_reads_while_reading :
    answer (exec .rdStatus (reading [] 1 base)) = some (.data 1#32)
      ∧ answer (exec .rdCnt { reading [] 1 base with rdcnt := 1#16 }) = some (.data 1#32)
      ∧ answer (exec .rdErrinfo (reading [] 1 base)) = some (.data 0#32) := by decide
/-- V-EXC-8. -/
theorem test_wrCmd :
    next (exec (.wrCmd 0#32) { base with done := true, errcode := 5#4, errinfo := 0x533#32 })
      (fun t => t.statusWord = 1#32 ∧ t.errinfo = 0#32 ∧ t.seq = .exec) := by decide
/-- V-CTL-24. -/
theorem test_wrCmd_busy : answer (exec (.wrCmd 1#32) (reading [] 1 base)) = some .err := by decide
/-- V-CTL-4. -/
theorem test_rdCmd : answer (exec .rdCmd { base with cmd := 0xFFFFFFFF#32 }) = some (.data 0xFFFFFFFF#32) := by decide
/-- V-CTL-13. -/
theorem test_rdParam : answer (exec .rdParam base) = some (.data 0x02FCB108#32) := by decide
/-- V-CTL-14. -/
theorem test_wrTxtype :
    next (exec (.wrTxtype 0x1EA#32) base) (fun t => answer (exec .rdTxtype t) = some (.data 0xEA#32)) := by decide
/-- V-CTL-15. -/
theorem test_wrPlen :
    next (exec (.wrPlen 0x103#32) base) (fun t => answer (exec .rdPlen t) = some (.data 3#32)) := by decide
/-- V-CTL-16. -/
theorem test_wrFlen :
    next (exec (.wrFlen 260#32) base) (fun t => answer (exec .rdFlen t) = some (.data 0x104#32)) := by decide
/-- V-CTL-17 and V-CTL-18. -/
theorem test_wrFlen_above_260 :
    answer (exec (.wrFlen 261#32) base) = some .err ∧ answer (exec (.wrFlen 0x80000007#32) base) = some .err := by decide
/-- V-CTL-28. -/
theorem test_rdDres :
    answer (exec .rdDres { base with dtype := 0xED#8, dlen := 3#8, dpar := 0x96#8 }) = some (.data 0x009603ED#32) := by
  decide
/-- V-GF-25's result. -/
theorem test_rdRxlen_rdRxcnt :
    answer (exec .rdRxlen { base with rxlen := 771#11 }) = some (.data 771#32)
      ∧ answer (exec .rdRxcnt { base with rxcnt := 3#9 }) = some (.data 3#32) := by decide
/-- V-CTL-19. -/
theorem test_pbuf :
    next (exec (.wrPbuf 0#6 0xA78#32) base)
      (fun t => answer (exec (.rdPbuf 0#6) t) = some (.data 0xA78#32) ∧ t.pbufBytes 4 = [0x78, 0x0A, 0, 0]) := by decide
/-- V-CTL-20. -/
theorem test_fbuf :
    next (exec (.wrFbuf 64#7 0x44332211#32) base)
      (fun t => answer (exec (.rdFbuf 64#7) t) = some (.data 0x44332211#32)
        ∧ t.fbufBytes 256 4 = [0x11, 0x22, 0x33, 0x44]) := by decide
/-- V-CTL-27. -/
theorem test_rdRxq :
    answer (exec (.rdRxq 0#8) (loaded 0x400 ack base)) = some (.data 0x007803ED#32)
      ∧ answer (exec (.rdRxq 1#8) (loaded 0x400 ack base)) = some (.data 0x96#32) := by decide
/-- V-CTL-23. -/
theorem test_wrRo : exec (.wrRo 0x400#11 1#32) base = .next { base with resp := .err } := by rfl
/-- V-CTL-25. -/
theorem test_windows_busy :
    answer (exec (.rdRxq 0#8) (reading [] 1 base)) = some .err
      ∧ answer (exec (.wrPbuf 0#6 0#32) (reading [] 1 base)) = some .err := by decide
/-- V-RST-3. -/
theorem test_reset_from_txw :
    next (step { sending 2#32 1 0 base with env := { Env.empty with sched := [.reset] } })
      (fun t => t.statusWord = 0#32 ∧ t.ctrlWord = 0x1000#32 ∧ t.cntWord = 0#32 ∧ t.txPort = none ∧ t.irq = false) := by
  decide
/-- The first step of a placed program runs the placed instruction (log entry 3). -/
theorem test_withFetchWord :
    next (step (State.reset.withFetchWord 48 0x814000000EA)) (fun t => t.txtype = 0xEA#8 ∧ t.resp = .ok)
      ∧ next (step (State.reset.withFetchWord 32 0)) (fun t => t.statusWord = 2#32) := by decide

/-- R294: a WAIT in the host's list, or a command in progress, and the run has not ended. -/
theorem test_runEnded :
    runEnded base = true ∧ runEnded (hosting [.wait] base) = false ∧ runEnded (accept 0#32 base) = false := by decide

/-! ## Witnesses: a concrete state and operands that meet a statement's hypotheses, at the ends of its clauses -/

theorem issues (t : BusWord) (s : State) : hostIssues (issuing t s) t := ⟨rfl, rfl⟩

theorem txIs (a : TxAck) (s : State) (h : s.seq = .txw) : txAnswers (txGives a s) a := ⟨rfl, h, rfl⟩

theorem rxIs (a : RxAck) (s : State) (h : s.seq = .rxw) (hc : s.cmd = 5#32) : rxAnswers (rxGives a s) a :=
  ⟨rfl, h, hc, rfl⟩

theorem dataIs (b : List Byte) (s : State) (h : s.seq = .rxw) (hc : s.cmd = 5#32)
    (hl : carries s.params.rb (rxLines b) b) (hx : ∃ x ∈ b, x ≠ 0#8) : dataArrives (rxGives (block b) s) b :=
  ⟨0x55#8, rxLines b, rxIs _ s h hc, hl, hx⟩

/-- A SEND of 37 chunks whose last one is outstanding. -/
def lastChunk : State := sending 2#32 37 36 base

/-- A GETFRAMES on its last attempt. -/
def lastAttempt : State := { reading [0xED] 255 base with maxatt := 255#8, first := true }

/-- A GETFRAMES in the backoff before its last attempt. -/
def lastBackoff : State := { backing [0xED, 0x03, 0x78] 254 base with maxatt := 255#8 }

/-- A GETFRAMES that has the frame of S3 in RXQ and 3 bytes of the next in RAB (S4). -/
def secondFrame : State :=
  { loaded 0x400 ack (reading [0xED, 0x03, 0x78] 1 base) with rxlen := 5#11, rxcnt := 1#9, rdcnt := 2#16 }

theorem inv_base : RunInv base := by constructor <;> decide
theorem inv_exec : RunInv (accept 5#32 opened) := by constructor <;> decide
theorem inv_lastChunk : RunInv lastChunk := by constructor <;> decide
theorem inv_lastAttempt : RunInv lastAttempt := by constructor <;> decide
theorem inv_lastBackoff : RunInv lastBackoff := by constructor <;> decide
theorem inv_secondFrame : RunInv secondFrame := by constructor <;> decide

theorem witness_DecodeOfEncodeIsTheInstruction :
    (Instr.wrFbuf 64#7 0xFFFFFFFF#32).wf = true ∧ (Instr.rdRxq 255#8).wf = true
      ∧ (Instr.wrRo 0x7FC#11 0#32).wf = true := by decide
theorem witness_EncodeOfDecodeIsTheWord :
    decodeCmd 5#32 = .ok .getframes ∧ decodeBus 0xB00FFFFFFFF#44 = .ok (.wrFbuf 64#7 0xFFFFFFFF#32)
      ∧ decodeBus 0x300FFFFFFFF#44 = .ok (.rdFbuf 64#7) := by decide
theorem witness_NoTransactionMatchesTwoRows :
    ∃ r ∈ busTable, 0xFFC00000001#44 &&& r.mask = r.value := ⟨⟨"WR_RO", 0xC0300000000#44, 0xC0000000000#44⟩, by decide⟩
theorem witness_HostStepRunsTheDecodedAccess :
    hostIssues (issuing 0x80C00000000#44 base) 0x80C00000000#44
      ∧ decodeBus 0x80C00000000#44 = .ok (.wrRo 0x00C#11 0#32) := ⟨issues _ _, rfl⟩
theorem witness_SequencerStepRunsTheDecodedCommand :
    mover (accept 5#32 base) = .sequencer ∧ (accept 5#32 base).seq = .exec
      ∧ decodeCmd (accept 5#32 base).cmd = .ok .getframes := by decide
theorem witness_RefusedAccess_misaligned :
    ∀ a ∈ [0x001#11, 0x002#11, 0x7FF#11], hostIssues (issuing (busOf false a 0#32) base) (busOf false a 0#32)
      ∧ (busA (busOf false a 0#32)).toNat % 4 ≠ 0 := fun a h => ⟨issues _ _, by revert a; decide⟩
theorem witness_RefusedAccess_reserved :
    (∀ a ∈ [0x030#11, 0x0FC#11], 0x030 ≤ (busA (busOf true a 0#32)).toNat ∧ (busA (busOf true a 0#32)).toNat ≤ 0x0FF)
      ∧ ∀ a ∈ [0x304#11, 0x3FC#11],
          0x304 ≤ (busA (busOf false a 0#32)).toNat ∧ (busA (busOf false a 0#32)).toNat ≤ 0x3FF := by decide
theorem witness_RefusedAccess_readOnly :
    (∀ a ∈ [0x00C#11, 0x02C#11], busW (busOf true a 0#32) = true
        ∧ (busA (busOf true a 0#32)).toNat ∈ [0x00C, 0x010, 0x020, 0x024, 0x028, 0x02C])
      ∧ ∀ a ∈ [0x400#11, 0x7FC#11], busW (busOf true a 0#32) = true ∧ 0x400 ≤ (busA (busOf true a 0#32)).toNat := by
  decide
theorem witness_IllegalCommandWordOnlyCompletes :
    ∀ w ∈ [6#32, 0x105#32, 0xFFFFFFFF#32], mover (accept w base) = .sequencer ∧ (accept w base).seq = .exec
      ∧ 5 < (accept w base).cmd.toNat := by simp [mover, nextAgent, accept, base, State.reset, Env.empty]
theorem witness_WaitReadsStatusUntilNotBusy :
    ∀ s ∈ [hosting [.wait] base, hosting [.wait] lastChunk], mover s = .host ∧ s.env.host.head? = some .wait := by decide
theorem witness_ResetEventGivesEveryResetValue :
    mover { lastAttempt with env := { Env.empty with sched := [.reset] } } = .reset := by decide
theorem witness_EveryStepKeepsTheInvariant :
    ∀ s ∈ [base, accept 5#32 opened, lastChunk, lastAttempt, lastBackoff, secondFrame],
      RunInv s ∧ ∃ t, step s = .next t := by
  intro s hs
  simp only [List.mem_cons, List.not_mem_nil, or_false] at hs
  rcases hs with rfl | rfl | rfl | rfl | rfl | rfl
  · exact ⟨inv_base, _, rfl⟩
  · exact ⟨inv_exec, _, rfl⟩
  · exact ⟨inv_lastChunk, _, rfl⟩
  · exact ⟨inv_lastAttempt, _, rfl⟩
  · exact ⟨inv_lastBackoff, _, rfl⟩
  · exact ⟨inv_secondFrame, _, rfl⟩
theorem witness_EveryStepAnswersUnderTheInvariant :
    RunInv (rxGives (block (zeros 8)) lastAttempt) := by constructor <;> decide
theorem witness_EveryStepKeepsWholeFramesInRxq :
    RunInv (rxGives (block ([0x00, 0x96] ++ zeros 6)) secondFrame)
      ∧ RxqHoldsFrames (rxGives (block ([0x00, 0x96] ++ zeros 6)) secondFrame)
      ∧ next (step (rxGives (block ([0x00, 0x96] ++ zeros 6)) secondFrame)) (fun t => t.rxcnt = 2#9) :=
  ⟨by constructor <;> decide, ⟨[ack], by decide⟩, by decide⟩
theorem witness_OnlyAcceptance_sets_busy :
    RunInv (issuing 0x80800000005#44 base) ∧ (issuing 0x80800000005#44 base).busy = false
      ∧ next (step (issuing 0x80800000005#44 base)) (fun t => t.busy) := ⟨by constructor <;> decide, by decide⟩
theorem witness_OnlyCompletion_sets_done :
    RunInv (accept 0#32 base) ∧ (accept 0#32 base).done = false ∧ next (step (accept 0#32 base)) (fun t => t.done) :=
  ⟨by constructor <;> decide, by decide⟩
theorem witness_OperandsStandStillWhileBusy :
    (accept 1#32 base).busy = true ∧ mover (accept 1#32 base) ≠ .reset
      ∧ next (step (accept 1#32 base)) (fun _ => true) := by decide
theorem witness_OnlyASuccessfulDecodeWritesDres :
    let s := loaded 0x200 ack { accept 4#32 base with flen := 5#9 }
    next (step s) (fun t => t.dresWord ≠ s.dresWord) := by decide
theorem witness_HostCannotChangeTheResultList :
    mover (issuing 0xC0000000001#44 base) = .host
      ∧ next (step (issuing 0xC0000000001#44 base)) (fun t => t.resp = .err) := by decide
theorem witness_FrameBufferWriters :
    next (step (issuing 0x81C00000104#44 base)) (fun t => t.flen ≠ base.flen)
      ∧ next (step (issuing 0xB0001000000#44 base)) (fun t => t.fbuf 259 ≠ base.fbuf 259)
      ∧ next (step (accept 1#32 base)) (fun t => t.flen ≠ base.flen) := by decide
theorem witness_HandedBlocksAreNeverTakenBack :
    next (step { accept 2#32 opened with flen := 7#9 }) (fun t => t.env.sent.length = 1)
      ∧ next (step lastChunk) (fun t => t.env.sent = lastChunk.env.sent) := by decide
theorem witness_SilentTransportHangsTheCommand :
    (lastChunk.busy = true ∧ lastChunk.seq = .txw ∧ lastChunk.env.tx = [] ∧ mover lastChunk ≠ .reset
        ∧ next (step lastChunk) (fun _ => true))
      ∧ lastAttempt.busy = true ∧ lastAttempt.seq = .rxw ∧ lastAttempt.env.rx = [] ∧ mover lastAttempt ≠ .reset
      ∧ next (step lastAttempt) (fun _ => true) := by decide
theorem witness_StrayAnswersAreIgnored :
    (mover (txGives ⟨true, 1#8⟩ lastAttempt) = .tx ∧ (txGives ⟨true, 1#8⟩ lastAttempt).seq ≠ .txw)
      ∧ mover (rxGives (block (zeros 8)) base) = .rx ∧ (rxGives (block (zeros 8)) base).seq ≠ .rxw := by decide
theorem witness_BusReadsOnlyAnswer :
    (encode (.rdRxq 255#8) = .bus 0x7FC00000000#44 ∧ busW 0x7FC00000000#44 = false)
      ∧ next (exec (.rdRxq 255#8) base) (fun _ => true) := by decide
theorem witness_BusyGatingAcceptsEightOperations :
    lastChunk.busy = true ∧ encode (.wrCtrl 6#32) = .bus 0x80000000006#44
      ∧ encode (.wrPbuf 63#6 0#32) = .bus 0x9FC00000000#44
      ∧ decodeBus 0x03000000000#44 = .error .reservedAddress := by decide
theorem witness_idle_and_busy : base.busy = false ∧ lastChunk.busy = true := by decide
theorem witness_CmdErrinfoAndCntReads :
    base.busy = false ∧ next (exec (.wrCmd 0xFFFFFFFF#32) base) (fun _ => true) := by decide
theorem witness_ParamReadReturnsTheInstance :
    base.params.Legal ∧ Params.Legal ⟨1, 0#8⟩ ∧ Params.Legal ⟨32, 255#8⟩ ∧ Params.standard.Legal := by decide
theorem witness_OperandAndResultRegisterReads :
    base.busy = false ∧ lastAttempt.busy = true ∧ Instr.rdDres ∈ [Instr.rdTxtype, .rdPlen, .rdFlen, .rdRxlen, .rdRxcnt, .rdDres] := by
  decide
theorem witness_CtrlWriteIdleAndBusy :
    base.busy = false ∧ lastChunk.busy = true ∧ (0x1#32).extractLsb' 8 8 = 0#8 ∧ (0x101#32).extractLsb' 8 8 ≠ 0#8
      ∧ next (exec (.wrCtrl 2#32) { base with done := true }) (fun t => t.irq) := by
  decide
theorem witness_StatusWriteClearsDone : (0x2#32).getLsbD 1 = true ∧ (0xFFFFFFFD#32).getLsbD 1 = false := by decide
theorem witness_CmdWriteAcceptsWhenIdle : base.busy = false ∧ lastBackoff.busy = true := by decide
theorem witness_TxtypeAndPlenWritesStoreTheLowByte : base.busy = false ∧ lastChunk.busy = true := by decide
theorem witness_FlenWriteStoresUpTo260 :
    base.busy = false ∧ (260#32).toNat ≤ 260 ∧ lastChunk.busy = true ∧ 260 < (261#32).toNat
      ∧ 260 < (0x80000007#32).toNat := by decide
theorem witness_PbufWriteStoresFourBytes :
    base.busy = false ∧ Memory.wf base.mem = true ∧ lastChunk.busy = true ∧ (63#6).toNat = 63 := by decide
theorem witness_FbufWriteStoresFourBytes :
    (64#7).toNat ≤ 64 ∧ base.busy = false ∧ Memory.wf base.mem = true ∧ lastChunk.busy = true := by decide
theorem witness_WindowReadsReturnFourBytes :
    (64#7).toNat ≤ 64 ∧ (0#7).toNat ≤ 64 ∧ base.busy = false ∧ lastAttempt.busy = true := by decide
theorem witness_WindowWordReadsBack :
    base.busy = false ∧ Memory.wf base.mem = true ∧ (64#7).toNat ≤ 64 ∧ (63#7).toNat ≤ 64 := by decide
theorem witness_ReadOnlyWriteIsABusError :
    0x02C#11 ∈ [0x00C#11, 0x010#11, 0x020#11, 0x024#11, 0x028#11, 0x02C#11]
      ∧ (0x400 ≤ (0x400#11).toNat ∧ (0x400#11).toNat % 4 = 0)
      ∧ 0x400 ≤ (0x7FC#11).toNat ∧ (0x7FC#11).toNat % 4 = 0 := by decide
theorem witness_NopOnlyCompletes : (accept 0#32 base).cmd = 0#32 := by decide

/-- An ENCODE about to run with the payload length n. -/
def encoding (cmd : Word) (n : Byte) : State := { accept cmd base with txtype := 0xEA#8, plen := n }

theorem witness_EncodeWritesThePaddedFrame :
    (∀ n ∈ [253#8, 255#8], (encoding 1#32 n).cmd = 1#32 ∧ Memory.wf (encoding 1#32 n).mem = true
        ∧ 252 < (encoding 1#32 n).plen.toNat)
      ∧ ∀ n ∈ [0#8, 4#8, 252#8], (encoding 1#32 n).cmd = 1#32 ∧ Memory.wf (encoding 1#32 n).mem = true
        ∧ (encoding 1#32 n).plen.toNat ≤ 252 := by decide
theorem witness_EncodedFrameHasEvenParity :
    Memory.wf (encoding 1#32 5#8).mem = true ∧ next (exec .encode (encoding 1#32 5#8)) (fun t => t.errcode = 0#4) := by
  decide
theorem witness_DecodeOfEncodedFrameGivesItBack :
    ∀ n ∈ [0#8, 1#8, 252#8], (encoding 1#32 n).cmd = 1#32 ∧ Memory.wf (encoding 1#32 n).mem = true
      ∧ (encoding 1#32 n).plen.toNat ≤ 252 := by decide

/-- A DECODE about to run on m bytes. -/
def decoding (bs : List Byte) (m : BitVec 9) : State := loaded 0x200 bs { accept 4#32 base with flen := m }

theorem witness_DecodeChecksInOrder_errors :
    ((decoding [0xED] 1#9).cmd = 4#32 ∧ (decoding [0xED] 1#9).flen.toNat < 2)
      ∧ (2 ≤ (decoding [0xED, 0x01] 2#9).flen.toNat ∧ ((decoding [0xED, 0x01] 2#9).fbuf 1).toNat < 2)
      ∧ 2 ≤ (decoding [0xEA, 0x02, 0x55] 3#9).flen.toNat ∧ 2 ≤ ((decoding [0xEA, 0x02, 0x55] 3#9).fbuf 1).toNat
      ∧ (decoding [0xEA, 0x02, 0x55] 3#9).flen.toNat < 2 + ((decoding [0xEA, 0x02, 0x55] 3#9).fbuf 1).toNat := by decide
theorem witness_DecodeChecksInOrder_bad_parity :
    let s := decoding [0xEA, 0x02, 0x55, 0xBC] 4#9
    2 ≤ (s.fbuf 1).toNat ∧ 2 + (s.fbuf 1).toNat ≤ s.flen.toNat
      ∧ xorBytes (s.fbufBytes 0 (1 + (s.fbuf 1).toNat)) ≠ s.fbuf (1 + (s.fbuf 1).toNat) := by decide
theorem witness_DecodeChecksInOrder_good :
    let s := decoding [0xEA, 0x02, 0x55, 0xBD] 4#9
    2 ≤ (s.fbuf 1).toNat ∧ 2 + (s.fbuf 1).toNat ≤ s.flen.toNat
      ∧ xorBytes (s.fbufBytes 0 (1 + (s.fbuf 1).toNat)) = s.fbuf (1 + (s.fbuf 1).toNat) := by decide

/-- A SEND about to run on m bytes. -/
def toSend (m : BitVec 9) (cancel : Bool) : State := { accept 2#32 opened with flen := m, cancel := cancel }

theorem witness_SendStartsTheLoop :
    ((accept 2#32 base).cmd = 2#32 ∧ (accept 2#32 base).en = false)
      ∧ ((toSend 260#9 false).cmd = 2#32 ∧ (toSend 260#9 false).en = true ∧ (toSend 260#9 false).flen.toNat % 7 ≠ 0)
      ∧ ((toSend 0#9 true).en = true ∧ (toSend 0#9 true).flen = 0#9)
      ∧ ((toSend 259#9 true).flen.toNat % 7 = 0 ∧ (toSend 259#9 true).flen ≠ 0#9 ∧ (toSend 259#9 true).cancel = true)
      ∧ (toSend 7#9 false).flen.toNat % 7 = 0 ∧ (toSend 7#9 false).flen ≠ 0#9 ∧ (toSend 7#9 false).cancel = false := by
  decide
theorem witness_OkAnswerGoesToTheNextChunk :
    txAnswers (txGives ⟨false, 0#8⟩ lastChunk) ⟨false, 0#8⟩ ∧ lastChunk.cmd = 2#32 ∧ lastChunk.k < lastChunk.nch
      ∧ lastChunk.nch ≤ 37 ∧ lastChunk.k + 1 = lastChunk.nch := ⟨txIs _ _ rfl, by decide⟩
theorem witness_OkAnswer_more_chunks :
    let s := sending 3#32 2 0 base
    txAnswers (txGives ⟨false, 9#8⟩ s) ⟨false, 9#8⟩ ∧ s.cmd = 3#32 ∧ s.k < s.nch ∧ s.nch ≤ 37 ∧ s.k + 1 < s.nch
      ∧ s.cancel = false ∧ txAnswers (txGives ⟨false, 9#8⟩ { s with cancel := true }) ⟨false, 9#8⟩ :=
  ⟨txIs _ _ rfl, by decide, by decide, by decide, by decide, by decide, txIs _ _ rfl⟩
theorem witness_ErrorAnswerEndsTheSend :
    txAnswers (txGives ⟨true, 0x42#8⟩ lastChunk) ⟨true, 0x42#8⟩ ∧ lastChunk.cmd = 2#32 ∧ lastChunk.k ≤ 37 :=
  ⟨txIs _ _ rfl, by decide⟩
theorem witness_EncsendEncodesThenSends :
    ((encoding 3#32 253#8).cmd = 3#32 ∧ 252 < (encoding 3#32 253#8).plen.toNat)
      ∧ ((encoding 3#32 252#8).plen.toNat ≤ 252 ∧ (encoding 3#32 252#8).en = false)
      ∧ ∀ c : Bool, ({ encoding 3#32 0#8 with en := true, cancel := c } : State).plen.toNat ≤ 252
        ∧ ({ encoding 3#32 0#8 with en := true, cancel := c } : State).cancel = c
        ∧ Memory.wf (encoding 3#32 0#8).mem = true := by decide
theorem witness_SendOfNChunksCompletes :
    ∀ n ∈ [0, 1, 37], ∃ (s : State) (acks rest : List TxAck), s.seq = .exec ∧ s.cmd = 2#32 ∧ s.en = true
      ∧ s.cancel = false ∧ s.env.sched = [] ∧ s.flen.toNat = 7 * n ∧ n ≤ 37 ∧ s.env.tx = acks ++ rest
      ∧ acks.length = n ∧ ∀ a ∈ acks, a.err = false := by
  intro n hn
  refine ⟨{ toSend (BitVec.ofNat 9 (7 * n)) false with
    env := { Env.empty with tx := List.replicate n ⟨false, 0#8⟩ ++ [⟨true, 1#8⟩] } },
    List.replicate n ⟨false, 0#8⟩, [⟨true, 1#8⟩], ?_⟩
  revert n
  decide
theorem witness_GetframesStartsWithARead :
    ((accept 5#32 base).cmd = 5#32 ∧ (accept 5#32 base).en = false)
      ∧ ({ accept 5#32 opened with cancel := true } : State).en = true
      ∧ (accept 5#32 opened).en = true ∧ (accept 5#32 opened).cancel = false := by decide
theorem witness_BackoffEndsInTheNextAttempt :
    ∀ c : Bool, let s := { lastBackoff with cancel := c }
      mover s = .sequencer ∧ s.seq = .bkoff ∧ s.cmd = 5#32 ∧ s.cancel = c := by decide
theorem witness_RxErrorEndsGetframes :
    rxAnswers (rxGives ⟨true, 0x33#8, 0#256⟩ lastAttempt) ⟨true, 0x33#8, 0#256⟩ := rxIs _ _ rfl rfl
theorem witness_ZeroBlockIsRetriedUpToMaxatt :
    rxAnswers (rxGives (block (zeros 8)) lastAttempt) (block (zeros 8))
      ∧ (∀ i < lastAttempt.params.rb, (block (zeros 8)).data.extractLsb' (8 * i) 8 = 0#8) ∧ lastAttempt.att ≤ 255
      ∧ lastAttempt.maxatt.toNat ≤ lastAttempt.att := ⟨rxIs _ _ rfl rfl, by decide⟩
theorem witness_ZeroBlock_below_maxatt :
    let s := { lastAttempt with att := 254 }
    rxAnswers (rxGives (block (zeros 8)) s) (block (zeros 8)) ∧ s.att ≤ 255 ∧ s.att < s.maxatt.toNat :=
  ⟨rxIs _ _ rfl rfl, by decide⟩

/-- A GETFRAMES of an instance with RB = 1. -/
def readingOne (r : List Byte) : State := { reading r 1 base with params := ⟨1, 0xB1#8⟩ }

theorem carriesOne (x : Byte) : carries 1 (rxLines [x]) [x] := by
  refine ⟨rfl, fun i h => ?_⟩
  have : i = 0 := by simpa using h
  subst this
  apply BitVec.eq_of_getLsbD_eq
  intro j hj
  simp [rxLines, hj]
  omega

/-- With RB = 1, `r` in RAB and no whole frame before `rest`: the byte x comes. -/
theorem oneByte (r rest : List Byte) (x : Byte) (s : State) (h : s.seq = .rxw) (hc : s.cmd = 5#32)
    (hp : s.params.rb = 1) (hr : s.rab = r) (hq : s.rxlen.toNat ≤ 1024) (hx : x ≠ 0#8) (he : r ++ [x] = rest) :
    framesThenRest (rxGives (block [x]) s) [x] [] rest :=
  ⟨dataIs _ s h hc (by rw [hp]; exact carriesOne x) ⟨x, by simp, hx⟩, by simpa [rxGives, hr] using he, by simp,
    by simpa [rxGives] using hq, fun h => absurd rfl h⟩

theorem witness_IncompleteFrameReadsOn :
    (framesThenRest (rxGives (block [0xEA]) (readingOne [])) [0xEA] [] [0xEA] ∧ [0xEA#8].length < 2)
      ∧ (framesThenRest (rxGives (block [0x02]) (readingOne [0xEA])) [0x02] [] [0xEA, 0x02]
        ∧ 2 ≤ lenOf [0xEA, 0x02] ∧ [0xEA#8, 0x02].length < 2 + lenOf [0xEA, 0x02])
      ∧ framesThenRest (rxGives (block [0x55]) (readingOne [0xEA, 0x02])) [0x55] [] [0xEA, 0x02, 0x55]
      ∧ [0xEA#8, 0x02, 0x55].length < 2 + lenOf [0xEA, 0x02, 0x55]
      ∧ ∀ c : Bool, ({ readingOne [] with cancel := c } : State).cancel = c :=
  ⟨⟨oneByte [] _ _ _ rfl rfl rfl rfl (by decide) (by decide) rfl, by decide⟩,
    ⟨oneByte [0xEA] _ _ _ rfl rfl rfl rfl (by decide) (by decide) rfl, by decide⟩,
    oneByte [0xEA, 0x02] _ _ _ rfl rfl rfl rfl (by decide) (by decide) rfl, by decide⟩

/-- A block of 8 bytes comes that holds the frame of S3 and 3 more bytes. -/
theorem ackThen (rest : List Byte) (hc : carries 8 (rxLines (ack ++ rest)) (ack ++ rest)) (hx : ∃ x ∈ rest, x ≠ 0#8) :
    framesThenRest (rxGives (block (ack ++ rest)) (reading [] 1 base)) (ack ++ rest) [ack] rest :=
  ⟨dataIs _ _ rfl rfl hc ⟨0xED, by simp [ack], by decide⟩, rfl, by decide,
    show 0 + [ack].flatten.length ≤ 1024 by decide, fun _ => ⟨rfl, hx⟩⟩

/-- The first block of V-GF-2: a good frame, then an incomplete one. -/
theorem witness_IncompleteFrame_behind_a_good_one :
    framesThenRest (rxGives (block (ack ++ [0xED, 0x03, 0x78])) (reading [] 1 base)) (ack ++ [0xED, 0x03, 0x78]) [ack]
        [0xED, 0x03, 0x78]
      ∧ 2 ≤ lenOf [0xED, 0x03, 0x78] ∧ [0xED#8, 0x03, 0x78].length < 2 + lenOf [0xED, 0x03, 0x78] :=
  ⟨ackThen _ ⟨rfl, by decide⟩ ⟨0xED, by decide⟩, by decide⟩
theorem witness_BadFrame_length :
    framesThenRest (rxGives (block [0x01]) (readingOne [0xEA])) [0x01] [] [0xEA, 0x01] ∧ lenOf [0xEA, 0x01] < 2
      ∧ 2 ≤ [0xEA#8, 0x01].length :=
  ⟨oneByte [0xEA] _ _ _ rfl rfl rfl rfl (by decide) (by decide) rfl, by decide⟩
/-- V-GF-8 and V-GF-9: a good frame, then a remainder whose second byte is 0. -/
theorem witness_BadFrame_length_behind_a_good_one :
    (framesThenRest (rxGives (block (ack ++ [0x01, 0x00, 0x00])) (reading [] 1 base)) (ack ++ [0x01, 0x00, 0x00]) [ack]
        [0x01, 0x00, 0x00] ∧ lenOf [0x01, 0x00, 0x00] < 2)
      ∧ framesThenRest (rxGives (block (ack ++ [0x00, 0x00, 0xED])) (reading [] 1 base)) (ack ++ [0x00, 0x00, 0xED]) [ack]
        [0x00, 0x00, 0xED] ∧ lenOf [0x00, 0x00, 0xED] < 2 :=
  ⟨⟨ackThen _ ⟨rfl, by decide⟩ ⟨0x01, by decide⟩, by decide⟩, ackThen _ ⟨rfl, by decide⟩ ⟨0xED, by decide⟩, by decide⟩
theorem witness_BadFrame_parity :
    let r : List Byte := [0xEA, 0x02, 0x55, 0xBC]
    framesThenRest (rxGives (block [0xBC]) (readingOne [0xEA, 0x02, 0x55])) [0xBC] [] r ∧ 2 ≤ lenOf r
      ∧ 2 + lenOf r ≤ r.length ∧ xorBytes (r.take (1 + lenOf r)) ≠ r.getD (1 + lenOf r) 0#8 :=
  ⟨oneByte [0xEA, 0x02, 0x55] _ _ _ rfl rfl rfl rfl (by decide) (by decide) rfl, by decide⟩
theorem witness_BadFrame_overflow :
    let r : List Byte := [0xEA, 0x02, 0x55, 0xBD]
    let s := { readingOne [0xEA, 0x02, 0x55] with rxlen := 1021#11 }
    framesThenRest (rxGives (block [0xBD]) s) [0xBD] [] r ∧ xorBytes (r.take (1 + lenOf r)) = r.getD (1 + lenOf r) 0#8
      ∧ 1024 < s.rxlen.toNat + 2 + lenOf r :=
  ⟨oneByte [0xEA, 0x02, 0x55] _ _ _ rfl rfl rfl rfl (by decide) (by decide) rfl, by decide⟩
theorem witness_GoodFrameWithZeroRemainderCompletes :
    let r : List Byte := [0xEA, 0x02, 0x55, 0xBD]
    let s := { readingOne [0xEA, 0x02, 0x55] with rxlen := 1020#11 }
    framesThenRest (rxGives (block [0xBD]) s) [0xBD] [] r ∧ Memory.wf s.mem = true ∧ 2 ≤ lenOf r
      ∧ 2 + lenOf r ≤ r.length ∧ xorBytes (r.take (1 + lenOf r)) = r.getD (1 + lenOf r) 0#8
      ∧ s.rxlen.toNat + ([] : List (List Byte)).flatten.length + 2 + lenOf r ≤ 1024 ∧ ∀ x ∈ r.drop (2 + lenOf r), x = 0#8 :=
  ⟨oneByte [0xEA, 0x02, 0x55] _ _ _ rfl rfl rfl rfl (by decide) (by decide) rfl, by decide⟩
/-- Two good frames in one block of 16 bytes, then zeros. -/
theorem witness_GoodFrame_behind_a_good_one :
    let s := { reading [] 1 base with params := ⟨16, 0xB1#8⟩ }
    let r := ack ++ zeros 6
    framesThenRest (rxGives (block (ack ++ r)) s) (ack ++ r) [ack] r ∧ Memory.wf s.mem = true ∧ 2 ≤ lenOf r
      ∧ 2 + lenOf r ≤ r.length ∧ xorBytes (r.take (1 + lenOf r)) = r.getD (1 + lenOf r) 0#8
      ∧ s.rxlen.toNat + [ack].flatten.length + 2 + lenOf r ≤ 1024 ∧ ∀ x ∈ r.drop (2 + lenOf r), x = 0#8 :=
  ⟨⟨dataIs _ _ rfl rfl ⟨rfl, by decide⟩ ⟨0xED, by decide⟩, rfl, by decide, by decide, fun _ => ⟨rfl, 0xED, by decide⟩⟩,
    by decide⟩

/-- The read blocks of S4. -/
def blocksS4 : List (List Byte) := [ack ++ [0xED, 0x03, 0x78], [0x00, 0x96] ++ zeros 6]

/-- GETFRAMES about to run on the blocks of S4, and one more answer. -/
def streamS4 : State :=
  { accept 5#32 opened with env := { Env.empty with rx := blocksS4.map block ++ [⟨true, 1#8, 0#256⟩] } }

theorem witness_GetframesGivesBackTheFramesOfTheStream :
    (streamS4.seq = .exec ∧ streamS4.cmd = 5#32 ∧ streamS4.en = true ∧ streamS4.cancel = false
        ∧ streamS4.env.sched = [] ∧ Memory.wf streamS4.mem = true ∧ 1 ≤ streamS4.params.rb)
      ∧ ((∀ f ∈ [ack, ack], validFrame f = true) ∧ [ack, ack].flatten.length ≤ 1024
        ∧ blocksS4.flatten = [ack, ack].flatten ++ List.replicate 6 0#8 ∧ 6 < streamS4.params.rb)
      ∧ (List.Forall₂ (fun a b => a.err = false ∧ carries streamS4.params.rb a.data b) (blocksS4.map block) blocksS4
        ∧ streamS4.env.rx = blocksS4.map block ++ [⟨true, 1#8, 0#256⟩])
      ∧ (∀ b ∈ blocksS4, b.length = streamS4.params.rb ∧ ∃ x ∈ b, x ≠ 0#8)
      ∧ (∀ gs hs, [ack, ack] = gs ++ hs → gs ≠ [] → hs ≠ [] →
          ∃ x ∈ (blocksS4.flatten.take (((gs.flatten.length - 1) / streamS4.params.rb + 1) * streamS4.params.rb)).drop
            gs.flatten.length, x ≠ 0#8) := by
  refine ⟨by decide, by decide,
    ⟨.cons ⟨rfl, rfl, by decide⟩ (.cons ⟨rfl, rfl, by decide⟩ .nil), rfl⟩, by decide, ?_⟩
  intro gs hs h hg hh
  match gs, hs with
  | [], _ => exact absurd rfl hg
  | _, [] => exact absurd rfl hh
  | [g], x :: hs =>
    injection h with h _
    subst h
    decide
  | g :: g' :: gs, x :: hs =>
    have := congrArg List.length h
    simp at this
theorem witness_GetframesCompletionLeavesAllOrNothing :
    RunInv (rxGives (block (ack ++ zeros 3)) { reading [] 1 base with first := true })
      ∧ next (step (rxGives (block (ack ++ zeros 3)) { reading [] 1 base with first := true }))
          (fun t => !t.busy && t.errcode = 0#4)
      ∧ RunInv (rxGives ⟨true, 0x34#8, 0#256⟩ secondFrame)
      ∧ next (step (rxGives ⟨true, 0x34#8, 0#256⟩ secondFrame)) (fun t => !t.busy && t.errcode ≠ 0#4) :=
  ⟨by constructor <;> decide, by decide, by constructor <;> decide, by decide⟩
theorem witness_CancelActsOnlyAtCheckPoints :
    RunInv (issuing 0x80000001005#44 lastChunk) ∧ lastChunk.busy = true
      ∧ next (step (issuing 0x80000001005#44 lastChunk)) (fun t => t.busy && t.cancel)
      ∧ RunInv { txGives ⟨false, 0#8⟩ lastChunk with cancel := true }
      ∧ next (step { txGives ⟨false, 0#8⟩ lastChunk with cancel := true }) (fun t => !t.busy) :=
  ⟨by constructor <;> decide, by decide, by decide, by constructor <;> decide, by decide⟩
/-- A command completes with Cancelled at each kind of check point. -/
theorem witness_Cancelled_at_check_points :
    (RunInv { accept 5#32 opened with cancel := true }
        ∧ next (step { accept 5#32 opened with cancel := true }) (fun t => !t.busy && t.errcode = 7#4))
      ∧ (RunInv { lastBackoff with cancel := true }
        ∧ next (step { lastBackoff with cancel := true }) (fun t => !t.busy && t.errcode = 7#4))
      ∧ (RunInv (txGives ⟨false, 0#8⟩ { sending 3#32 2 0 base with cancel := true })
        ∧ next (step (txGives ⟨false, 0#8⟩ { sending 3#32 2 0 base with cancel := true }))
            (fun t => !t.busy && t.errcode = 7#4))
      ∧ RunInv (rxGives (block (ack ++ [0xED, 0x03, 0x78])) { reading [] 1 base with cancel := true })
      ∧ next (step (rxGives (block (ack ++ [0xED, 0x03, 0x78])) { reading [] 1 base with cancel := true }))
          (fun t => !t.busy && t.errcode = 7#4) :=
  ⟨⟨by constructor <;> decide, by decide⟩, ⟨by constructor <;> decide, by decide⟩,
    ⟨by constructor <;> decide, by decide⟩, by constructor <;> decide, by decide⟩

end Sys2Proof.Tests
end

section
/-! The steps of the host and of the sequencer, reduced to the instruction that they run (spec/00_scope.md R7). -/

namespace Sys2Proof.Machine

/-! ## An agent's move, once the kind of its event is known -/

/-- A step in which the host issues an access performs that access, on the state without it (R7, R67). -/
theorem step_of_hostIssues {s : State} {t : BusWord} (h : hostIssues s t) : step s = busAccess t (afterHost s) := by
  obtain ⟨hm, ht⟩ := h
  obtain ⟨rest, hl⟩ := List.head?_eq_some_iff.mp ht
  have hmove : hostMove s.scheduled = busAccess t s.scheduled.hostTakes := by simp [hostMove, hl]
  rw [step_eq, hm]
  exact hmove

/-- A step of the sequencer in EXEC starts the command in CMD, on the state without the schedule's entry (R41). -/
theorem step_of_sequencer_exec {s : State} (hm : mover s = .sequencer) (hx : s.seq = .exec) :
    step s = startCommand (afterSeq s) := by
  have hmove : internalStep s.scheduled = startCommand s.scheduled := by simp [internalStep, hx]
  rw [step_eq, hm]
  exact hmove

/-! ## What a decoded word runs -/

theorem busAccess_of_decodeBus {t : BusWord} {i : Instr} (h : decodeBus t = .ok i) (s : State) :
    busAccess t s = exec i s := by
  simp [busAccess, h]

theorem startCommand_of_decodeCmd {s : State} {i : Instr} (h : decodeCmd s.cmd = .ok i) :
    startCommand s = exec i s := by
  simp [startCommand, h]

/-! ## The obligations -/

/-- Settles O6: the host's move is the bus access, and the bus access is the decoded instruction. -/
theorem hostStepRunsTheDecodedAccess : Obligations.HostStepRunsTheDecodedAccess := by
  intro s t i hi hd
  rw [step_of_hostIssues hi, busAccess_of_decodeBus hd]

/-- Settles O7: the sequencer's move in EXEC is the command's start, and that is the decoded instruction; taking the
schedule's entry off leaves CMD as it is. -/
theorem sequencerStepRunsTheDecodedCommand : Obligations.SequencerStepRunsTheDecodedCommand := by
  intro s i hm hx hd
  have hd' : decodeCmd (afterSeq s).cmd = .ok i := hd
  rw [step_of_sequencer_exec hm hx, startCommand_of_decodeCmd hd']

end Sys2Proof.Machine
end

section
/-! What one host event can do: a bus instruction only answers, or is one of eight writes (spec/20_memory.md R67 to
R69, spec/43_control.md R212 to R235). -/

namespace Sys2Proof.Machine

/-- What the accepted writes do: `BusWrite s i t` says that the write `i` is accepted in `s` and leaves `t`. -/
inductive BusWrite (s : State) : Instr → State → Prop
  | ctrl (d : Word) : BusWrite s (.wrCtrl d)
      (State.respond { s with
        ie := d.getLsbD 1
        en := if s.busy then s.en else d.getLsbD 0
        maxatt := if s.busy then s.maxatt else legalMaxatt d
        cancel := s.cancel || (s.busy && d.getLsbD 2) } .ok)
  | status (d : Word) : BusWrite s (.wrStatus d) (State.respond { s with done := s.done && !d.getLsbD 1 } .ok)
  | cmd (w : Word) (hb : s.busy = false) : BusWrite s (.wrCmd w) ((accept w s).respond .ok)
  | txtype (d : Word) (hb : s.busy = false) :
      BusWrite s (.wrTxtype d) (State.respond { s with txtype := d.extractLsb' 0 8 } .ok)
  | plen (d : Word) (hb : s.busy = false) :
      BusWrite s (.wrPlen d) (State.respond { s with plen := d.extractLsb' 0 8 } .ok)
  | flen (d : Word) (hb : s.busy = false) (hd : d.toNat ≤ 260) :
      BusWrite s (.wrFlen d) (State.respond { s with flen := d.extractLsb' 0 9 } .ok)
  | pbuf (i : BitVec 6) (d : Word) (hb : s.busy = false) :
      BusWrite s (.wrPbuf i d) ((s.store (pbufBase + 4 * i.toNat) (wordBytes d)).respond .ok)
  | fbuf (i : BitVec 7) (d : Word) (hb : s.busy = false) (hi : i.toNat ≤ 64) :
      BusWrite s (.wrFbuf i d) ((s.store (fbufBase + 4 * i.toNat) (wordBytes d)).respond .ok)

/-- While busy a write changes IE and CANCEL or clears DONE, and nothing else is accepted (R69). -/
theorem BusWrite.of_busy {s t : State} {i : Instr} (hw : BusWrite s i t) (hb : s.busy = true) :
    (∃ b c, t = { s with ie := b, cancel := c, resp := .ok })
      ∨ ∃ b, t = { s with done := s.done && b, resp := .ok } := by
  cases hw with
  | ctrl d =>
    simp only [hb, if_true]
    exact .inl ⟨_, _, rfl⟩
  | status d => exact .inr ⟨_, rfl⟩
  | _ => simp_all

/-! ## Gated accesses -/

theorem busRead_answers {s t : State} {d : Word} (h : busRead d s = .next t) : ∃ r, t = s.respond r := by
  injection h with h
  exact ⟨_, h.symm⟩

theorem whenIdle_busRead_answers {s t : State} {d : Word} (h : whenIdle s (busRead d s) = .next t) :
    ∃ r, t = s.respond r := by
  rcases whenIdle_cases h with ⟨_, ht⟩ | ⟨_, ht⟩
  · exact ⟨_, ht⟩
  · exact busRead_answers ht

theorem windowRead_answers {a : Nat} {s t : State} (h : windowRead a s = .next t) : ∃ r, t = s.respond r := by
  rcases windowRead_cases h with ⟨_, ht⟩ | ⟨_, ht⟩ <;> exact ⟨_, ht⟩

/-- A gated write is refused while busy, or no command is in progress and it leaves `u`. -/
theorem whenIdle_busWritten_cases {s t u : State} (h : whenIdle s (busWritten u) = .next t) :
    (∃ r, t = s.respond r) ∨ (s.busy = false ∧ t = u.respond .ok) := by
  rcases whenIdle_cases h with ⟨_, ht⟩ | ⟨hb, ht⟩
  · exact .inl ⟨_, ht⟩
  · injection ht with ht
    exact .inr ⟨hb, ht.symm⟩

/-- WR_FLEN is refused, or stores a value up to 260 while idle (R224). -/
theorem execWrFlen_cases {d : Word} {s t : State} (h : execWrFlen d s = .next t) :
    (∃ r, t = s.respond r)
      ∨ (s.busy = false ∧ d.toNat ≤ 260 ∧ t = State.respond { s with flen := d.extractLsb' 0 9 } .ok) := by
  unfold execWrFlen at h
  split at h
  · next hd =>
    rcases whenIdle_busWritten_cases h with ht | ⟨hb, ht⟩
    · exact .inl ht
    · exact .inr ⟨hb, hd, ht⟩
  · rcases whenIdle_cases h with ⟨_, ht⟩ | ⟨_, ht⟩
    · exact .inl ⟨_, ht⟩
    · injection ht with ht
      exact .inl ⟨_, ht.symm⟩

/-! ## Every bus instruction -/

/-- A bus instruction only answers, or it is an accepted write. -/
theorem exec_bus_cases {i : Instr} {a : BusWord} (hi : encode i = .bus a) {s t : State} (h : exec i s = .next t) :
    (∃ r, t = s.respond r) ∨ BusWrite s i t := by
  cases i with
  | nop => cases hi
  | encode => cases hi
  | send => cases hi
  | encsend => cases hi
  | decode => cases hi
  | getframes => cases hi
  | rdCtrl => exact .inl (busRead_answers h)
  | rdStatus => exact .inl (busRead_answers h)
  | rdCmd => exact .inl (busRead_answers h)
  | rdErrinfo => exact .inl (busRead_answers h)
  | rdParam => exact .inl (busRead_answers h)
  | rdCnt => exact .inl (busRead_answers h)
  | rdTxtype => exact .inl (whenIdle_busRead_answers h)
  | rdPlen => exact .inl (whenIdle_busRead_answers h)
  | rdFlen => exact .inl (whenIdle_busRead_answers h)
  | rdDres => exact .inl (whenIdle_busRead_answers h)
  | rdRxlen => exact .inl (whenIdle_busRead_answers h)
  | rdRxcnt => exact .inl (whenIdle_busRead_answers h)
  | rdPbuf i => exact .inl (windowRead_answers h)
  | rdRxq i => exact .inl (windowRead_answers h)
  | rdFbuf i =>
    simp only [exec, execRdFbuf] at h
    split at h
    · exact .inl (windowRead_answers h)
    · injection h with h
      exact .inl ⟨_, h.symm⟩
  | wrRo a d =>
    injection h with h
    exact .inl ⟨_, h.symm⟩
  | wrCtrl d =>
    injection h with h
    exact .inr (h ▸ .ctrl d)
  | wrStatus d =>
    injection h with h
    exact .inr (h ▸ .status d)
  | wrCmd w => exact (whenIdle_busWritten_cases h).imp_right fun ⟨hb, ht⟩ => ht ▸ .cmd w hb
  | wrTxtype d => exact (whenIdle_busWritten_cases h).imp_right fun ⟨hb, ht⟩ => ht ▸ .txtype d hb
  | wrPlen d => exact (whenIdle_busWritten_cases h).imp_right fun ⟨hb, ht⟩ => ht ▸ .plen d hb
  | wrFlen d => exact (execWrFlen_cases h).imp_right fun ⟨hb, hd, ht⟩ => ht ▸ .flen d hb hd
  | wrPbuf i d => exact (whenIdle_busWritten_cases h).imp_right fun ⟨hb, ht⟩ => ht ▸ .pbuf i d hb
  | wrFbuf i d =>
    simp only [exec, execWrFbuf] at h
    split at h
    · next hi => exact (whenIdle_busWritten_cases h).imp_right fun ⟨hb, ht⟩ => ht ▸ .fbuf i d hb hi
    · injection h with h
      exact .inl ⟨_, h.symm⟩

/-- Whatever the decoder's answer `r` accepts is a bus instruction. -/
def GivesBus (r : Except Reject Instr) : Prop := ∀ i, r = .ok i → ∃ b, encode i = .bus b

theorem givesBus_ok {i : Instr} {b : BusWord} (h : encode i = .bus b) : GivesBus (.ok i) := by
  intro j hj
  injection hj with hj
  exact ⟨b, hj ▸ h⟩

theorem givesBus_error (e : Reject) : GivesBus (.error e) := nofun

theorem givesBus_ite {c : Prop} [Decidable c] {r q : Except Reject Instr} (hr : GivesBus r) (hq : GivesBus q) :
    GivesBus (if c then r else q) := by
  split
  · exact hr
  · exact hq

theorem givesBus_decodeWrite (a : Addr) (d : Word) : GivesBus (decodeWrite a d) := by
  unfold decodeWrite
  refine givesBus_ite (givesBus_error _) ?_
  repeat refine givesBus_ite (givesBus_ok rfl) ?_
  exact givesBus_error _

theorem givesBus_decodeRead (a : Addr) : GivesBus (decodeRead a) := by
  unfold decodeRead
  refine givesBus_ite (givesBus_error _) ?_
  repeat refine givesBus_ite (givesBus_ok rfl) ?_
  exact givesBus_error _

/-- A bus transaction decodes to a bus instruction only (R97). -/
theorem encode_of_decodeBus_isBus {t : BusWord} {i : Instr} (h : decodeBus t = .ok i) : ∃ a, encode i = .bus a :=
  givesBus_ite (givesBus_decodeWrite (busA t) (busD t)) (givesBus_decodeRead (busA t)) i h

/-! ## The host's move -/

/-- The event has changed nothing but the host port's answer and the list of what the host will do. -/
def OnlyAnswers (s t : State) : Prop :=
  t = { s with resp := t.resp, env := { s.env with host := t.env.host } }

/-- The host's move only answers, or is an accepted write, which a transaction at the head of its list encodes. -/
theorem hostMove_cases {s t : State} (h : hostMove s = .next t) :
    OnlyAnswers s t
      ∨ ∃ a i, s.env.host.head? = some (.access a) ∧ decodeBus a = .ok i ∧ BusWrite s.hostTakes i t := by
  unfold hostMove at h
  split at h
  · injection h with h
    exact .inl (h ▸ rfl)
  · next a _ hl =>
    unfold busAccess at h
    split at h
    · next i hd =>
      obtain ⟨b, hb⟩ := encode_of_decodeBus_isBus hd
      rcases exec_bus_cases hb h with ⟨r, rfl⟩ | hw
      · exact .inl rfl
      · exact .inr ⟨a, i, by rw [hl]; rfl, hd, hw⟩
    · injection h with h
      exact .inl (h ▸ rfl)
  · split at h <;>
    · obtain ⟨r, rfl⟩ := busRead_answers h
      exact .inl rfl

end Sys2Proof.Machine
end

section
/-! What one move of the sequencer or of a transport can do (spec/40_codec.md, spec/41_send.md, spec/42_receive.md). -/

namespace Sys2Proof.Machine

/-! ## The reassembly loop as frames taken one by one -/

/-- CONSUME moves RAB's first frame to RXQ: it is whole, its declared length is at least 2, its parity agrees, and it
fits (R179 to R183). -/
structure FrameReady (s : State) : Prop where
  long : 2 ≤ rabLen s
  whole : 2 + rabLen s ≤ s.rab.length
  parity : rabParity s = rabParityByte s
  fits : s.rxlen.toNat + 2 + rabLen s ≤ 1024

/-- `FramesTaken s u`: the loop has moved some good frames, none or more, from RAB to RXQ. -/
inductive FramesTaken : State → State → Prop
  | none (s : State) : FramesTaken s s
  | more {s u : State} (hf : FrameReady s) (h : FramesTaken (appendFrame s) u) : FramesTaken s u

/-- What the loop does once it has taken its last frame and `u` is left (R171, R179 to R184). -/
inductive FillEnds (u : State) : State → Prop
  | badLength : FillEnds u (finish .invalidDeclaredLength (rxInfo (zext32 (u.rab.getD 1 0#8)) 0#32 u) u)
  | badParity : FillEnds u
      (finish .parityMismatch (rxInfo (zext32 (rabParityByte u)) (zext32 (rabParity u)) u) (dropFrame u))
  | overflow : FillEnds u (finish .rxOverflow (rxInfo (zext32 u.rxlen) 0#32 u) (dropFrame u))
  | complete (hf : FrameReady u) : FillEnds u (finish .ok 0#32 (appendFrame u))
  | readsOn (hn : needsMore u) : FillEnds u (readOne u)

/-- FILL takes good frames off RAB's front and then ends in one of five ways. -/
theorem fill_cases (s : State) : ∃ u, FramesTaken s u ∧ FillEnds u (fill s) := by
  induction hn : s.rab.length using Nat.strongRecOn generalizing s with
  | ind n ih =>
    rw [fill_eq s]
    split
    · next h => exact ⟨s, .none s, .readsOn (.inl h)⟩
    · split
      · exact ⟨s, .none s, .badLength⟩
      · split
        · next h1 h2 h3 => exact ⟨s, .none s, .readsOn (.inr ⟨Nat.le_of_not_lt h2, h3⟩)⟩
        · next h1 h2 h3 =>
          rcases consume_cases s with ⟨_, hc⟩ | ⟨_, _, hc⟩ | ⟨hp, hf, _, hc⟩ | ⟨hp, hf, _, hc⟩ <;> rw [hc]
          · exact ⟨s, .none s, .badParity⟩
          · exact ⟨s, .none s, .overflow⟩
          · exact ⟨s, .none s, .complete ⟨by omega, by omega, hp, hf⟩⟩
          · have hlt := consume_again_shorter hc (by omega)
            obtain ⟨u, hu, he⟩ := ih _ (by omega) (appendFrame s) rfl
            exact ⟨u, .more ⟨by omega, by omega, hp, hf⟩ hu, he⟩

/-! ## The start of a command (R41) -/

/-- A word is its low byte when its reserved bits 31:8 are 0 (R96). -/
theorem word_eq_of_low_byte {w c : Word} (hh : w.extractLsb' 8 24 = 0#24) (hl : w.extractLsb' 0 8 = c.extractLsb' 0 8)
    (hc : c.extractLsb' 8 24 = 0#24) : w = c := by
  have hh' := congrArg BitVec.toNat (hh.trans hc.symm)
  have hl' := congrArg BitVec.toNat hl
  simp only [BitVec.extractLsb'_toNat, Nat.shiftRight_eq_div_pow] at hh' hl'
  bv_omega

/-- CMD decodes to a command only, and the word is that command's encoding (R96). -/
theorem encode_of_decodeCmd {w : Word} {i : Instr} (h : decodeCmd w = .ok i) : encode i = .cmd w := by
  unfold decodeCmd at h
  split at h
  · next hh =>
    repeat' split at h
    all_goals cases h
    all_goals exact congrArg Enc.cmd (word_eq_of_low_byte hh ‹_› rfl).symm
  · cases h

/-- What the start of a command answers: `Starts s t` for CMD's command started in `s`. -/
inductive Starts (s : State) : State → Prop
  /-- NOP, an illegal word, a refused ENCODE and a failed DECODE only complete. -/
  | ends (e : ErrKind) (info : Word) (he : e ≠ .cancelled) (hc : s.cmd ≠ 5#32) : Starts s (finish e info s)
  | encodes (hc : s.cmd = 1#32) (hp : payloadTooLong s = false) : Starts s (finish .ok 0#32 (encodeFrame s))
  | decodes (a l p : Byte) (hc : s.cmd = 4#32) :
      Starts s (finish .ok 0#32 { s with dtype := a, dlen := l, dpar := p })
  | sends {t : State} (hc : s.cmd = 2#32) (h : sendStart { s with txcnt := 0#16 } = .next t) : Starts s t
  | refuses (info : Word) (hc : s.cmd = 3#32) : Starts s (finish .payloadTooLong info { s with txcnt := 0#16 })
  | encsends {t : State} (hc : s.cmd = 3#32) (hp : payloadTooLong s = false)
      (h : sendStart (encodeFrame { s with txcnt := 0#16 }) = .next t) : Starts s t
  | closed (info : Word) (hc : s.cmd = 5#32) : Starts s (finish .notOpen info (getframesStart s))
  | receives (hc : s.cmd = 5#32) (he : s.en = true) : Starts s (fill (getframesStart s))

theorem execEncode_starts {s t : State} (hc : s.cmd = 1#32) (h : execEncode s = .next t) : Starts s t := by
  unfold execEncode at h
  split at h
  · injection h with h
    exact h ▸ .ends _ _ (by decide) (by simp [hc])
  · next hp =>
    injection h with h
    exact h ▸ .encodes hc (by simpa using hp)

theorem execDecode_starts {s t : State} (hc : s.cmd = 4#32) (h : execDecode s = .next t) : Starts s t := by
  have h5 : s.cmd ≠ 5#32 := by simp [hc]
  unfold execDecode at h
  repeat' split at h
  case isFalse.isFalse.isFalse.isFalse =>
    injection h with h
    exact h ▸ .decodes _ _ _ hc
  all_goals
    injection h with h
    exact h ▸ .ends _ _ (by decide) h5

theorem execEncsend_starts {s t : State} (hc : s.cmd = 3#32) (h : execEncsend s = .next t) : Starts s t := by
  unfold execEncsend at h
  split at h
  · injection h with h
    exact h ▸ .refuses _ hc
  · next hp => exact .encsends hc (by simpa using hp) h

theorem execGetframes_starts {s t : State} (hc : s.cmd = 5#32) (h : execGetframes s = .next t) : Starts s t := by
  unfold execGetframes at h
  split at h
  · injection h with h
    exact h ▸ .closed _ hc
  · next he =>
    injection h with h
    exact h ▸ .receives hc (by simpa using he)

/-- The sequencer's step from EXEC starts a command. -/
theorem startCommand_starts {s t : State} (h : startCommand s = .next t) : Starts s t := by
  unfold startCommand at h
  split at h
  · next i hd =>
    have hi := encode_of_decodeCmd hd
    cases i with
    | nop =>
      have hc : s.cmd = 0#32 := (Enc.cmd.inj hi).symm
      injection h with h
      exact h ▸ .ends _ _ (by decide) (by simp [hc])
    | encode => exact execEncode_starts (Enc.cmd.inj hi).symm h
    | send => exact .sends (Enc.cmd.inj hi).symm h
    | encsend => exact execEncsend_starts (Enc.cmd.inj hi).symm h
    | decode => exact execDecode_starts (Enc.cmd.inj hi).symm h
    | getframes => exact execGetframes_starts (Enc.cmd.inj hi).symm h
    | _ => cases hi
  · next hd =>
    injection h with h
    refine h ▸ .ends _ _ (by decide) fun h5 => ?_
    simp [h5, decodeCmd] at hd

end Sys2Proof.Machine
end

section
/-! What a command in progress leaves alone, and how one move leaves it: completed, or waiting on. -/

namespace Sys2Proof.Machine

/-! ## What a command in progress leaves alone -/

/-- From `s` to `t` a command has moved its own counters, ports and results only: not the parameters, CTRL, STATUS, CMD,
the operand registers, DRES, or the bytes of PBUF and FBUF. -/
def Carries (s t : State) : Prop :=
  t = { s with
      rxlen := t.rxlen, rxcnt := t.rxcnt, rdcnt := t.rdcnt, txcnt := t.txcnt, mem := t.mem, rab := t.rab
      seq := t.seq, k := t.k, nch := t.nch, att := t.att, first := t.first, txPort := t.txPort, rxReq := t.rxReq
      env := t.env }
    ∧ ∀ a < rxqBase, Memory.read t.mem a = Memory.read s.mem a

theorem Carries.refl (s : State) : Carries s s := ⟨rfl, fun _ _ => rfl⟩

theorem Carries.trans {s t u : State} (h : Carries s t) (g : Carries t u) : Carries s u := by
  obtain ⟨ht, hm⟩ := h
  obtain ⟨hu, hn⟩ := g
  rw [ht] at hu
  exact ⟨hu, fun a ha => (hn a ha).trans (hm a ha)⟩

section Fields
variable {s t : State} (h : Carries s t)
include h

theorem Carries.params : t.params = s.params := (congrArg State.params h.1 :)
theorem Carries.en : t.en = s.en := (congrArg State.en h.1 :)
theorem Carries.cancel : t.cancel = s.cancel := (congrArg State.cancel h.1 :)
theorem Carries.maxatt : t.maxatt = s.maxatt := (congrArg State.maxatt h.1 :)
theorem Carries.busy : t.busy = s.busy := (congrArg State.busy h.1 :)
theorem Carries.done : t.done = s.done := (congrArg State.done h.1 :)
theorem Carries.toEmpty : t.toEmpty = s.toEmpty := (congrArg State.toEmpty h.1 :)
theorem Carries.errcode : t.errcode = s.errcode := (congrArg State.errcode h.1 :)
theorem Carries.errinfo : t.errinfo = s.errinfo := (congrArg State.errinfo h.1 :)
theorem Carries.cmd : t.cmd = s.cmd := (congrArg State.cmd h.1 :)
theorem Carries.txtype : t.txtype = s.txtype := (congrArg State.txtype h.1 :)
theorem Carries.plen : t.plen = s.plen := (congrArg State.plen h.1 :)
theorem Carries.flen : t.flen = s.flen := (congrArg State.flen h.1 :)
theorem Carries.dresWord : t.dresWord = s.dresWord := (congrArg State.dresWord h.1 :)
theorem Carries.pbuf {i : Nat} (hi : i < 256) : t.pbuf i = s.pbuf i := h.2 _ (by simp only [pbufBase, rxqBase]; omega)
theorem Carries.fbuf {i : Nat} (hi : i < 260) : t.fbuf i = s.fbuf i := h.2 _ (by simp only [fbufBase, rxqBase]; omega)

end Fields

/-- Taking a frame off RAB writes RXQ only. -/
theorem carries_appendFrame (s : State) : Carries s (appendFrame s) :=
  ⟨rfl, fun _ ha => memory_read_writeBytes_outside _ _ (.inl (by omega))⟩

theorem FramesTaken.carries {s u : State} (h : FramesTaken s u) : Carries s u := by
  induction h with
  | none s => exact .refl s
  | more _ _ ih => exact (carries_appendFrame _).trans ih

theorem carries_dropFrame (s : State) : Carries s (dropFrame s) := ⟨rfl, fun _ _ => rfl⟩

theorem carries_issueChunk (s : State) : Carries s (issueChunk s) := ⟨rfl, fun _ _ => rfl⟩

theorem carries_getframesStart (s : State) : Carries s (getframesStart s) := ⟨rfl, fun _ _ => rfl⟩

/-! ## How one move leaves the command -/

/-- One move takes a command from `s` to `t`: it completes, Cancelled only with CANCEL = 1, or it goes on. -/
inductive Leaves (s : State) : State → Prop
  | completed {u : State} (hu : Carries s u) (e : ErrKind) (info : Word) (hc : e = .cancelled → s.cancel = true) :
      Leaves s (finish e info u)
  | goesOn {t : State} (ht : Carries s t) : Leaves s t

theorem Leaves.after {s u t : State} (g : Leaves u t) (h : Carries s u) : Leaves s t := by
  cases g with
  | completed hu e info hc => exact .completed (h.trans hu) e info fun he => h.cancel ▸ hc he
  | goesOn ht => exact .goesOn (h.trans ht)

theorem nextChunk_leaves {s t : State} (h : nextChunk s = .next t) : Leaves s t := by
  rcases nextChunk_cases s with ⟨_, hn⟩ | ⟨_, hc, hn⟩ | ⟨_, _, _, hn⟩ | ⟨_, _, _, hn⟩ <;> rw [hn] at h <;> cases h
  · exact .completed (.refl s) _ _ nofun
  · exact .completed (.refl s) _ _ fun _ => hc
  · exact .goesOn (carries_issueChunk s)

theorem sendStart_leaves {s t : State} (h : sendStart s = .next t) : Leaves s t := by
  rcases sendStart_cases s with ⟨_, hn⟩ | ⟨_, _, hn⟩ | ⟨_, _, hn⟩ <;> rw [hn] at h
  · injection h with h
    exact h ▸ .completed (.refl s) _ _ nofun
  · injection h with h
    exact h ▸ .completed (.refl s) _ _ nofun
  · exact (nextChunk_leaves h).after ⟨rfl, fun _ _ => rfl⟩

theorem attempt_leaves (s : State) : Leaves s (attempt s) := by
  rcases attempt_cases s with ⟨hc, h⟩ | ⟨_, h⟩ <;> rw [h]
  · exact .completed (.refl s) _ _ fun _ => hc
  · exact .goesOn ⟨rfl, fun _ _ => rfl⟩

theorem readOne_leaves (s : State) : Leaves s (readOne s) :=
  (attempt_leaves _).after ⟨rfl, fun _ _ => rfl⟩

theorem fill_leaves (s : State) : Leaves s (fill s) := by
  obtain ⟨u, hu, he⟩ := fill_cases s
  refine Leaves.after ?_ hu.carries
  generalize fill s = t at he
  cases he with
  | badLength => exact .completed (.refl u) _ _ nofun
  | badParity => exact .completed (carries_dropFrame u) _ _ nofun
  | overflow => exact .completed (carries_dropFrame u) _ _ nofun
  | complete hf => exact .completed (carries_appendFrame u) _ _ nofun
  | readsOn hn => exact readOne_leaves u

/-! ## The answers of the transports -/

theorem txAnswered_leaves {a : TxAnswer} {s t : State} (h : txAnswered a s = .next t) : Leaves s t := by
  cases a with
  | ok => exact (nextChunk_leaves h).after ⟨rfl, fun _ _ => rfl⟩
  | err c =>
    injection h with h
    exact h ▸ .completed (u := { s with txPort := none }) ⟨rfl, fun _ _ => rfl⟩ _ _ nofun

theorem noDataYet_leaves (s : State) : Leaves s (noDataYet s) := by
  unfold noDataYet
  split
  · exact .completed (.refl s) _ _ nofun
  · exact .goesOn ⟨rfl, fun _ _ => rfl⟩

theorem rxAnswered_leaves {a : RxAnswer} {s t : State} (h : rxAnswered a s = .next t) : Leaves s t := by
  have hq : Carries s { s with rxReq := false } := ⟨rfl, fun _ _ => rfl⟩
  cases a with
  | err c =>
    injection h with h
    exact h ▸ .completed hq _ _ nofun
  | block b =>
    simp only [rxAnswered] at h
    split at h <;> injection h with h <;> subst h
    · exact (noDataYet_leaves _).after hq
    · exact (fill_leaves { s with rab := s.rab ++ b, first := false, rxReq := false }).after ⟨rfl, fun _ _ => rfl⟩

/-- The TX transport's move: it is silent, its answer is dropped, or it answers the outstanding write. -/
theorem txMove_cases {s t : State} (h : txMove s = .next t) :
    (∃ e, t = { s with env := { s.env with tx := e } } ∧ (s.env.tx = [] → e = []))
      ∨ ∃ a rest, s.env.tx = a :: rest ∧ s.seq = .txw
          ∧ txAnswered a.answer { s with env := { s.env with tx := rest } } = .next t := by
  unfold txMove at h
  split at h
  · next he =>
    injection h with h
    exact .inl ⟨s.env.tx, h ▸ rfl, id⟩
  · next a rest he =>
    unfold txAnswer at h
    split at h
    · next hx => exact .inr ⟨a, rest, he, hx, h⟩
    · injection h with h
      exact .inl ⟨rest, h.symm, by simp [he]⟩

/-- The RX transport's move: it is silent, its answer is dropped, or it answers the outstanding read. -/
theorem rxMove_cases {s t : State} (h : rxMove s = .next t) :
    (∃ e, t = { s with env := { s.env with rx := e } } ∧ (s.env.rx = [] → e = []))
      ∨ ∃ a rest, s.env.rx = a :: rest ∧ s.seq = .rxw
          ∧ rxAnswered (a.answer s.params.rb) { s with env := { s.env with rx := rest } } = .next t := by
  unfold rxMove at h
  split at h
  · next he =>
    injection h with h
    exact .inl ⟨s.env.rx, h ▸ rfl, id⟩
  · next a rest he =>
    unfold rxAnswer at h
    split at h
    · next hx => exact .inr ⟨a, rest, he, hx, h⟩
    · injection h with h
      exact .inl ⟨rest, h.symm, by simp [he]⟩

/-- A transport's move leaves the command waiting or completed. -/
theorem txMove_leaves {s t : State} (h : txMove s = .next t) : Leaves s t := by
  rcases txMove_cases h with ⟨e, rfl, _⟩ | ⟨a, rest, _, _, h⟩
  · exact .goesOn ⟨rfl, fun _ _ => rfl⟩
  · exact (txAnswered_leaves h).after ⟨rfl, fun _ _ => rfl⟩

theorem rxMove_leaves {s t : State} (h : rxMove s = .next t) : Leaves s t := by
  rcases rxMove_cases h with ⟨e, rfl, _⟩ | ⟨a, rest, _, _, h⟩
  · exact .goesOn ⟨rfl, fun _ _ => rfl⟩
  · exact (rxAnswered_leaves h).after ⟨rfl, fun _ _ => rfl⟩

/-! ## The sequencer -/

/-- The sequencer's move starts CMD's command, ends a backoff, or has nothing to do. -/
theorem internalStep_cases {s t : State} (h : internalStep s = .next t) :
    (s.seq = .exec ∧ Starts s t) ∨ (s.seq = .bkoff ∧ t = attempt s)
      ∨ ((s.seq = .idle ∨ s.seq = .txw ∨ s.seq = .rxw) ∧ t = s) := by
  unfold internalStep at h
  split at h
  · next hx => exact .inl ⟨hx, startCommand_starts h⟩
  all_goals injection h with h; subst h
  · next hx => exact .inr (.inl ⟨hx, rfl⟩)
  · next hx => exact .inr (.inr ⟨.inl hx, rfl⟩)
  · next hx => exact .inr (.inr ⟨.inr (.inl hx), rfl⟩)
  · next hx => exact .inr (.inr ⟨.inr (.inr hx), rfl⟩)

/-- The start of a command writes FBUF and FLEN as an encode does, or DRES, or neither, before it goes on. -/
theorem Starts.leaves_cases {s t : State} (h : Starts s t) :
    Leaves s t
      ∨ ((s.cmd = 1#32 ∨ s.cmd = 3#32) ∧ payloadTooLong s = false ∧ Leaves (encodeFrame s) t)
      ∨ ∃ a l p, s.cmd = 4#32 ∧ t = finish .ok 0#32 { s with dtype := a, dlen := l, dpar := p } := by
  cases h with
  | ends e info he _ => exact .inl (.completed (.refl s) e info (absurd · he))
  | encodes hc hp => exact .inr (.inl ⟨.inl hc, hp, .completed (.refl _) _ _ nofun⟩)
  | decodes a l p hc => exact .inr (.inr ⟨a, l, p, hc, rfl⟩)
  | sends hc h => exact .inl ((sendStart_leaves h).after ⟨rfl, fun _ _ => rfl⟩)
  | refuses info hc =>
    exact .inl (.completed (u := { s with txcnt := 0#16 }) ⟨rfl, fun _ _ => rfl⟩ _ _ nofun)
  | encsends hc hp h =>
    exact .inr (.inl ⟨.inr hc, hp, (sendStart_leaves h).after ⟨rfl, fun _ _ => rfl⟩⟩)
  | closed info hc => exact .inl (.completed (carries_getframesStart s) _ _ nofun)
  | receives hc he => exact .inl ((fill_leaves _).after (carries_getframesStart s))

end Sys2Proof.Machine
end

section
/-! The invariant of every run (spec/10_state.md R22 to R43, spec/42_receive.md R174 to R186) and its preservation. -/

namespace Sys2Proof.Machine

/-! ## The invariant in the middle of a step -/

/-- What holds of a command in progress between the parts of a step, wherever SEQ stands. -/
structure Running (s : State) : Prop where
  params : s.params.Legal
  maxatt : s.maxatt ≠ 0#8
  busy : s.busy = true
  record : s.done = false ∧ s.toEmpty = false ∧ s.errcode = 0#4 ∧ s.errinfo = 0#32
  buffers : BuffersLegal s
  chunks : s.k ≤ s.nch ∧ s.nch ≤ 37
  att : s.att ≤ 255
  rab : s.cmd ≠ 5#32 → s.rab = []

/-- No transaction is outstanding on either port. -/
def PortsFree (s : State) : Prop := s.txPort = none ∧ s.rxReq = false

/-- What the invariant says of the loops' own state while neither a transaction nor a backoff is on: RAB is empty, the
counters are in range, and the ports are free. -/
def Quiet (s : State) : Prop := s.rab = [] ∧ (s.k ≤ s.nch ∧ s.nch ≤ 37) ∧ PortsFree s ∧ s.att ≤ 255

theorem RunInv.txPort_none {s : State} (h : RunInv s) (hx : s.seq ≠ .txw) : s.txPort = none := by
  obtain ⟨_, _, ht⟩ := h.send
  rwa [if_neg hx] at ht

theorem RunInv.rxReq_false {s : State} (h : RunInv s) (hx : s.seq ≠ .rxw) : s.rxReq = false :=
  Bool.eq_false_iff.mpr (mt h.receive.1.mp hx)

theorem RunInv.rab_nil {s : State} (h : RunInv s) (hr : s.seq ≠ .rxw) (hb : s.seq ≠ .bkoff) : s.rab = [] := by
  have := h.rab
  rwa [RabLegal, if_neg (by simp [hr, hb])] at this

theorem RunInv.needsMore {s : State} (h : RunInv s) (hx : s.seq = .rxw ∨ s.seq = .bkoff) : needsMore s := by
  have := h.rab
  rwa [RabLegal, if_pos hx] at this

theorem RunInv.busy_of_seq {s : State} (h : RunInv s) (hx : s.seq ≠ .idle) : s.busy = true := h.status.1.mpr hx

theorem RunInv.seq_idle {s : State} (h : RunInv s) (hb : s.busy = false) : s.seq = .idle := by
  by_contra hx
  simp [h.busy_of_seq hx] at hb

theorem RunInv.chunks {s : State} (h : RunInv s) : s.k ≤ s.nch ∧ s.nch ≤ 37 := ⟨h.send.1, h.send.2.1⟩

theorem RunInv.att_le {s : State} (h : RunInv s) : s.att ≤ 255 := h.receive.2.1

theorem rxlen_le_of_buffersLegal {s : State} (h : BuffersLegal s) : s.rxlen.toNat ≤ 1024 := by
  obtain ⟨_, _, _, hl, _⟩ := h
  exact hl

theorem RunInv.quiet {s : State} (h : RunInv s) (hx : s.seq = .idle ∨ s.seq = .exec) : Quiet s := by
  have h1 : s.seq ≠ .txw := by rcases hx with h | h <;> simp [h]
  have h2 : s.seq ≠ .rxw := by rcases hx with h | h <;> simp [h]
  have h3 : s.seq ≠ .bkoff := by rcases hx with h | h <;> simp [h]
  exact ⟨h.rab_nil h2 h3, h.chunks, ⟨h.txPort_none h1, h.rxReq_false h2⟩, h.att_le⟩

/-- A state that agrees with one of a run in all but the host port's answer and the agents' lists is one of a run. -/
theorem RunInv.of_env {s : State} (h : RunInv s) (r : BusResp) (e : Env) : RunInv { s with resp := r, env := e } :=
  ⟨h.params, h.ctrl, h.status, h.buffers, h.rab, h.send, h.receive, h.result⟩

/-- With a command in progress and SEQ not IDLE, the step's parts start from a running command. -/
theorem RunInv.running {s : State} (h : RunInv s) (hx : s.seq ≠ .idle) : Running s where
  params := h.params
  maxatt := h.ctrl.1
  busy := h.busy_of_seq hx
  record := by
    obtain ⟨_, hr, _⟩ := h.status
    exact hr (h.busy_of_seq hx)
  buffers := h.buffers
  chunks := h.chunks
  att := h.att_le
  rab hc := by
    obtain ⟨_, _, hr, _⟩ := h.receive
    exact h.rab_nil (fun hx => hc (hr (.inl hx)).1) fun hx => hc (hr (.inr hx)).1

/-- Where no transaction is outstanding, the invariant asks for no more than these parts. -/
theorem runInv_of_quiet {s : State} (hx : s.seq = .idle ∨ s.seq = .exec) (hp : s.params.Legal) (hc : CtrlLegal s)
    (hs : StatusLegal s) (hb : BuffersLegal s) (hq : Quiet s) (hl : ResultLegal s) : RunInv s := by
  obtain ⟨hr, hk, ⟨ht, hq⟩, ha⟩ := hq
  have h1 : s.seq ≠ .txw := by rcases hx with h | h <;> simp [h]
  have h2 : s.seq ≠ .rxw := by rcases hx with h | h <;> simp [h]
  have h3 : s.seq ≠ .bkoff := by rcases hx with h | h <;> simp [h]
  refine ⟨hp, hc, hs, hb, ?_, ⟨hk.1, hk.2, ?_⟩, ?_, hl⟩
  · rwa [RabLegal, if_neg (by simp [h2, h3])]
  · rwa [if_neg h1]
  · exact ⟨by simp [hq, h2], ha, by simp [h2, h3], fun h => absurd h h2, fun h => absurd h h3⟩

theorem errKind_code_le (e : ErrKind) : e.code.toNat ≤ 11 := by cases e <;> decide

theorem errKind_code_eq_zero {e : ErrKind} : e.code = 0#4 ↔ e = .ok := by cases e <;> decide

/-- While a command goes on, STATUS and ERRINFO are legal wherever SEQ stands. -/
theorem Running.statusLegal {s : State} (h : Running s) {x : SeqState} (hx : x ≠ .idle) :
    StatusLegal { s with seq := x } := by
  obtain ⟨hd, ht, hec, hei⟩ := h.record
  exact ⟨by simp [h.busy, hx], fun _ => ⟨hd, ht, hec, hei⟩, by simp [hec], by simp [ht]⟩

/-! ## How a step ends -/

section Ends
variable {s : State} (h : Running s) (hf : PortsFree s)
include h hf

/-- Completion: an OK of GETFRAMES needs a frame (R185, R241). -/
theorem runInv_finish {e : ErrKind} (info : Word) (hok : e = .ok → s.cmd = 5#32 → 1 ≤ s.rxcnt.toNat) :
    RunInv (finish e info s) := by
  have hg : s.isGetframes = true ↔ s.cmd = 5#32 := by simp [State.isGetframes]
  obtain ⟨_, hte, _, _⟩ := h.record
  obtain ⟨hm, hmm, hfl, hrl, hrc⟩ := h.buffers
  refine runInv_of_quiet (.inl rfl) h.params ⟨h.maxatt, nofun⟩ ⟨?_, nofun, errKind_code_le e, ?_⟩
    ⟨hm, hmm, hfl, ?_, ?_⟩ ⟨?_, h.chunks, hf, h.att⟩ ?_
  · simp
  · simp only [finish_toEmpty, finish_errcode, hte]
    split
    · next he => exact fun _ => he ▸ rfl
    · exact nofun
  · rw [finish_rxlen]
    split
    · exact Nat.zero_le _
    · exact hrl
  · rw [finish_rxcnt, finish_rxlen]
    split
    · exact Nat.zero_le _
    · exact hrc
  · rw [finish_rab]
    split
    · rfl
    · next hn => exact h.rab (mt hg.mpr hn)
  · intro _ hc
    simp only [finish_errcode, finish_rxcnt, finish_rxlen, ne_eq, errKind_code_eq_zero]
    have hg' := hg.mpr hc
    by_cases he : e = .ok
    · simpa [he] using hok he hc
    · simp [he, hg']

/-- A chunk handed over: SEND or ENCSEND of FLEN / 7 chunks, of which chunk K is left (R150). -/
theorem runInv_issueChunk (hc : s.cmd = 2#32 ∨ s.cmd = 3#32) (he : s.en = true) (hk : s.k < s.nch)
    (h7 : 7 * s.nch = s.flen.toNat) : RunInv (issueChunk s) where
  params := h.params
  ctrl := ⟨h.maxatt, fun _ => h.busy⟩
  status := h.statusLegal (x := .txw) nofun
  buffers := h.buffers
  rab := by
    rw [RabLegal, if_neg (by simp)]
    exact h.rab (by rcases hc with hc | hc <;> simp [hc])
  send := by
    refine ⟨h.chunks.1, h.chunks.2, ?_⟩
    rw [if_pos (issueChunk_seq s)]
    exact ⟨hc, he, hk, h7, rfl⟩
  receive := ⟨by simp [hf.2], h.att, by simp, by simp, by simp⟩
  result := by simp [ResultLegal]

/-- An attempt of a GETFRAMES that needs more bytes waits for its read (R171, R179). -/
theorem runInv_reads (hc : s.cmd = 5#32) (he : s.en = true) (hn : needsMore s) (ha : s.att < s.maxatt.toNat)
    (n : BitVec 16) : RunInv { s with att := s.att + 1, rdcnt := n, rxReq := true, seq := .rxw } where
  params := h.params
  ctrl := ⟨h.maxatt, fun _ => h.busy⟩
  status := h.statusLegal (x := .rxw) nofun
  buffers := h.buffers
  rab := by
    rw [RabLegal, if_pos (.inl rfl)]
    exact hn
  send := ⟨h.chunks.1, h.chunks.2, by simpa using hf.1⟩
  receive := by
    have hma : s.maxatt.toNat < 256 := s.maxatt.isLt
    exact ⟨by simp, by simp only; omega, fun _ => ⟨hc, he⟩, fun _ => ⟨by simp, ha⟩, nofun⟩
  result := nofun

/-- With attempts left a GETFRAMES that needs more bytes waits for the end of the backoff (R175, R179). -/
theorem runInv_backsOff (hc : s.cmd = 5#32) (he : s.en = true) (hn : needsMore s) (h1 : 1 ≤ s.att)
    (ha : s.att < s.maxatt.toNat) : RunInv { s with seq := .bkoff } where
  params := h.params
  ctrl := ⟨h.maxatt, fun _ => h.busy⟩
  status := h.statusLegal nofun
  buffers := h.buffers
  rab := by
    rw [RabLegal, if_pos (.inr rfl)]
    exact hn
  send := ⟨h.chunks.1, h.chunks.2, by simpa using hf.1⟩
  receive := ⟨by simp [hf.2], h.att, fun _ => ⟨hc, he⟩, nofun, fun _ => ⟨h1, ha⟩⟩
  result := nofun

/-- ATTEMPT (R171). -/
theorem runInv_attempt (hc : s.cmd = 5#32) (he : s.en = true) (hn : needsMore s) (ha : s.att < s.maxatt.toNat) :
    RunInv (attempt s) := by
  rcases attempt_cases s with ⟨_, hs⟩ | ⟨_, hs⟩ <;> rw [hs]
  · exact runInv_finish h hf _ nofun
  · exact runInv_reads h hf hc he hn ha _

/-- NEXTCHUNK (R150). -/
theorem runInv_nextChunk {t : State} (hc : s.cmd = 2#32 ∨ s.cmd = 3#32) (he : s.en = true)
    (h7 : 7 * s.nch = s.flen.toNat) (hs : nextChunk s = .next t) : RunInv t := by
  have h5 : s.cmd ≠ 5#32 := by rcases hc with hc | hc <;> simp [hc]
  have hk := h.chunks.1
  rcases nextChunk_cases s with ⟨_, hn⟩ | ⟨_, _, hn⟩ | ⟨hne, _, _, hn⟩ | ⟨_, _, _, hn⟩ <;> rw [hn] at hs <;> cases hs
  · exact runInv_finish h hf _ fun _ h => absurd h h5
  · exact runInv_finish h hf _ nofun
  · exact runInv_issueChunk h hf hc he (by omega) h7

/-- SENDSTART (R150). -/
theorem runInv_sendStart {t : State} (hc : s.cmd = 2#32 ∨ s.cmd = 3#32) (hs : sendStart s = .next t) : RunInv t := by
  obtain ⟨_, _, hfl, _⟩ := h.buffers
  rcases sendStart_cases s with ⟨_, hn⟩ | ⟨_, _, hn⟩ | ⟨he, hm, hn⟩ <;> rw [hn] at hs
  · cases hs
    exact runInv_finish h hf _ nofun
  · cases hs
    exact runInv_finish h hf _ nofun
  · have h0 : Running { s with nch := s.flen.toNat / 7, k := 0 } :=
      { h with chunks := ⟨Nat.zero_le _, by simp only [Config.fbufBytes] at hfl ⊢; omega⟩ }
    exact runInv_nextChunk h0 hf hc he (by simp only; omega) hs

end Ends

/-! ## Stores into the buffers -/

theorem windowByte_rxq {x : Nat} (h : rxqBase ≤ x) (h' : x < rxqBase + 1024) : windowByte x = true := by
  simp [windowByte, h, h']

theorem windowByte_fbuf {x : Nat} (h : fbufBase ≤ x) (h' : x < fbufBase + 260) : windowByte x = true := by
  simp [windowByte, h, h']

theorem windowByte_pbuf {x : Nat} (h : pbufBase ≤ x) (h' : x < pbufBase + 256) : windowByte x = true := by
  simp [windowByte, h, h']

/-! ## The parts of a step -/

theorem payloadTooLong_eq_false {s : State} : payloadTooLong s = false ↔ s.plen.toNat ≤ 252 := by
  simp [payloadTooLong]

theorem pbufBytes_length (s : State) (n : Nat) : (s.pbufBytes n).length = n := memory_readBytes_length _ _ _

/-- The body of ENCODE writes 7 to 259 bytes of FBUF, and their number to FLEN (R93, R121). -/
theorem encodeFrame_size {s : State} (hp : payloadTooLong s = false) :
    (paddedFrame s.txtype (s.pbufBytes s.plen.toNat)).length ≤ 259 ∧ (encodeFrame s).flen.toNat ≤ 259 := by
  have hb := padded_size_bounds (payloadTooLong_eq_false.mp hp)
  rw [paddedFrame_length, pbufBytes_length]
  refine ⟨hb.2, ?_⟩
  simp only [encodeFrame, BitVec.toNat_ofNat]
  omega

theorem Running.encodeFrame {s : State} (h : Running s) (hp : payloadTooLong s = false) : Running (encodeFrame s) := by
  obtain ⟨hm, hmm, _, hrl, hrc⟩ := h.buffers
  obtain ⟨hlen, hfl⟩ := encodeFrame_size hp
  have hmapped : Memory.mapped (Machine.encodeFrame s).mem = true :=
    memory_writeBytes_mapped hmm fun x hx hx' => windowByte_fbuf hx (by omega)
  exact { h with buffers := ⟨memory_writeBytes_wf hm, hmapped, hfl.trans (by decide), hrl, hrc⟩ }

/-- The frame that CONSUME takes has as many bytes as it declares (R181). -/
theorem FrameReady.length_rabFrame {s : State} (hr : FrameReady s) : (rabFrame s).length = 2 + rabLen s := by
  rw [rabFrame, List.length_take, Nat.min_eq_left hr.whole]

theorem FrameReady.rxlen_appendFrame {s : State} (hr : FrameReady s) :
    (appendFrame s).rxlen.toNat = s.rxlen.toNat + (2 + rabLen s) := by
  have := hr.fits
  simp only [appendFrame, BitVec.toNat_ofNat]
  omega

theorem rxcnt_appendFrame {s : State} (hb : BuffersLegal s) :
    (appendFrame s).rxcnt.toNat = s.rxcnt.toNat + 1 := by
  obtain ⟨_, _, _, hrl, hrc⟩ := hb
  simp only [appendFrame, Config.rxqBytes] at *
  bv_omega

theorem FrameReady.buffersLegal {s : State} (hr : FrameReady s) (hb : BuffersLegal s) :
    BuffersLegal (appendFrame s) := by
  have hl := hr.rxlen_appendFrame
  have hc := rxcnt_appendFrame hb
  have := hr.fits
  have := hr.long
  obtain ⟨hm, hmm, hfl, hrl, hrc⟩ := hb
  refine ⟨memory_writeBytes_wf hm, memory_writeBytes_mapped hmm ?_, hfl, ?_, ?_⟩
  · rw [hr.length_rabFrame]
    exact fun x hx hx' => windowByte_rxq (by omega) (by omega)
  · simp only [Config.rxqBytes]
    omega
  · omega

theorem Running.appendFrame {s : State} (h : Running s) (hc : s.cmd = 5#32) (hr : FrameReady s) :
    Running (appendFrame s) :=
  { h with buffers := hr.buffersLegal h.buffers, rab := fun hn => absurd hc hn }

theorem FramesTaken.running {s u : State} (ht : FramesTaken s u) (h : Running s) (hc : s.cmd = 5#32) : Running u := by
  induction ht with
  | none => exact h
  | more hr _ ih => exact ih (h.appendFrame hc hr) hc

theorem FramesTaken.portsFree {s u : State} (ht : FramesTaken s u) (h : PortsFree s) : PortsFree u := by
  induction ht with
  | none => exact h
  | more _ _ ih => exact ih h

/-- FILL (R179 to R184). -/
theorem runInv_fill {s : State} (h : Running s) (hf : PortsFree s) (hc : s.cmd = 5#32) (he : s.en = true) :
    RunInv (fill s) := by
  obtain ⟨u, hu, hend⟩ := fill_cases s
  have h' := hu.running h hc
  have hf' := hu.portsFree hf
  have hc' := hu.carries.cmd.trans hc
  have hd : Running (dropFrame u) := { h' with rab := fun hn => absurd hc' hn }
  generalize fill s = t at hend
  cases hend with
  | badLength => exact runInv_finish h' hf' _ nofun
  | badParity => exact runInv_finish hd hf' _ nofun
  | overflow => exact runInv_finish hd hf' _ nofun
  | complete hr =>
    refine runInv_finish (h'.appendFrame hc' hr) hf' _ fun _ _ => ?_
    rw [rxcnt_appendFrame h'.buffers]
    omega
  | readsOn hn =>
    have h0 : Running { u with att := 0 } := { h' with att := Nat.zero_le _ }
    refine runInv_attempt h0 hf' hc' (hu.carries.en.trans he) hn ?_
    have := h'.maxatt
    simp only
    bv_omega

/-! ## The moves of the agents -/

/-- The start of a command (R41). -/
theorem Starts.runInv {s t : State} (hs : Starts s t) (h : RunInv s) (hx : s.seq = .exec) : RunInv t := by
  have hr := h.running (by simp [hx])
  obtain ⟨_, _, hf, _⟩ := h.quiet (.inr hx)
  have hz : BuffersLegal (getframesStart s) := by
    obtain ⟨hm, hmm, hfl, _, _⟩ := h.buffers
    exact ⟨hm, hmm, hfl, Nat.zero_le _, Nat.zero_le _⟩
  have hg : Running (getframesStart s) := { hr with buffers := hz, rab := fun _ => rfl }
  have ht : Running { s with txcnt := 0#16 } := { hr with }
  cases hs with
  | ends e info _ h5 => exact runInv_finish hr hf info fun _ hc => absurd hc h5
  | encodes hc hp => exact runInv_finish (hr.encodeFrame hp) hf _ fun _ h5 => by simp [encodeFrame, hc] at h5
  | decodes a l p hc =>
    have hd : Running { s with dtype := a, dlen := l, dpar := p } := { hr with }
    exact runInv_finish hd hf _ fun _ h5 => by simp [hc] at h5
  | sends hc h => exact runInv_sendStart ht hf (.inl hc) h
  | refuses info hc => exact runInv_finish ht hf _ nofun
  | encsends hc hp h => exact runInv_sendStart (ht.encodeFrame hp) hf (.inr hc) h
  | closed info hc => exact runInv_finish hg hf _ nofun
  | receives hc he => exact runInv_fill hg hf hc he

theorem internalStep_keeps_runInv {s t : State} (h : RunInv s) (ht : internalStep s = .next t) : RunInv t := by
  rcases internalStep_cases ht with ⟨hx, hs⟩ | ⟨hx, rfl⟩ | ⟨_, rfl⟩
  · exact hs.runInv h hx
  · obtain ⟨_, _, hce, _, hatt⟩ := h.receive
    obtain ⟨hc, he⟩ := hce (.inr hx)
    exact runInv_attempt (h.running (by simp [hx])) ⟨h.txPort_none (by simp [hx]), h.rxReq_false (by simp [hx])⟩ hc he
      (h.needsMore (.inr hx)) (hatt hx).2
  · exact h

theorem RunInv.sending {s : State} (h : RunInv s) (hx : s.seq = .txw) :
    (s.cmd = 2#32 ∨ s.cmd = 3#32) ∧ s.en = true ∧ s.k < s.nch ∧ 7 * s.nch = s.flen.toNat := by
  obtain ⟨_, _, ht⟩ := h.send
  rw [if_pos hx] at ht
  obtain ⟨hc, he, hk, h7, _⟩ := ht
  exact ⟨hc, he, hk, h7⟩

/-- The TX answer (R150). -/
theorem runInv_txAnswered {a : TxAnswer} {s t : State} (ht : txAnswered a s = .next t) (h : RunInv s)
    (hx : s.seq = .txw) : RunInv t := by
  have hr := h.running (by simp [hx])
  have hq := h.rxReq_false (by simp [hx])
  obtain ⟨hc, he, hk, h7⟩ := h.sending hx
  cases a with
  | ok =>
    have hr' : Running { s with txPort := none, txcnt := sat16 (s.txcnt.toNat + 1), k := s.k + 1 } :=
      { hr with chunks := ⟨hk, hr.chunks.2⟩ }
    exact runInv_nextChunk hr' ⟨rfl, hq⟩ hc he h7 ht
  | err c =>
    have hr' : Running { s with txPort := none } := { hr with }
    cases ht
    exact runInv_finish hr' ⟨rfl, hq⟩ _ nofun

/-- The RX answer (R172 to R175). -/
theorem runInv_rxAnswered {a : RxAnswer} {s t : State} (ht : rxAnswered a s = .next t) (h : RunInv s)
    (hx : s.seq = .rxw) : RunInv t := by
  have hr : Running { s with rxReq := false } := { h.running (by simp [hx]) with }
  have hf : PortsFree { s with rxReq := false } := ⟨h.txPort_none (by simp [hx]), rfl⟩
  obtain ⟨_, _, hce, hatt, _⟩ := h.receive
  obtain ⟨hc, he⟩ := hce (.inl hx)
  cases a with
  | err c =>
    cases ht
    exact runInv_finish hr hf _ nofun
  | block b =>
    simp only [rxAnswered] at ht
    split at ht <;> cases ht
    · unfold noDataYet
      split
      · exact runInv_finish hr hf _ nofun
      · next hlt =>
        exact runInv_backsOff hr hf hc he (h.needsMore (.inl hx)) (hatt hx).1 (by omega)
    · have hb : Running { s with rab := s.rab ++ b, first := false, rxReq := false } :=
        { hr with rab := fun hn => absurd hc hn }
      exact runInv_fill hb hf hc he

theorem txMove_keeps_runInv {s t : State} (h : RunInv s) (ht : txMove s = .next t) : RunInv t := by
  rcases txMove_cases ht with ⟨e, rfl, _⟩ | ⟨a, rest, _, hx, ht⟩
  · exact h.of_env _ _
  · exact runInv_txAnswered ht (h.of_env _ _) hx

theorem rxMove_keeps_runInv {s t : State} (h : RunInv s) (ht : rxMove s = .next t) : RunInv t := by
  rcases rxMove_cases ht with ⟨e, rfl, _⟩ | ⟨a, rest, _, hx, ht⟩
  · exact h.of_env _ _
  · exact runInv_rxAnswered ht (h.of_env _ _) hx

end Sys2Proof.Machine
end

section
/-! The invariant through the host's writes and through every step, and no step that stops. -/

namespace Sys2Proof.Machine

/-! ## The host's writes -/

/-- A store into a buffer while no command is in progress. -/
theorem runInv_store {s : State} (h : RunInv s) (hb : s.busy = false) {a : Nat} {bs : List Byte}
    (ha : ∀ x, a ≤ x → x < a + bs.length → windowByte x = true) : RunInv (s.store a bs) := by
  have hx := h.seq_idle hb
  obtain ⟨hm, hmm, hfl, hrl, hrc⟩ := h.buffers
  exact runInv_of_quiet (.inl hx) h.params h.ctrl h.status
    ⟨memory_writeBytes_wf hm, memory_writeBytes_mapped hmm ha, hfl, hrl, hrc⟩ (h.quiet (.inl hx)) h.result

/-- Command acceptance (R212). -/
theorem runInv_accept {s : State} (h : RunInv s) (hb : s.busy = false) (w : Word) : RunInv (accept w s) := by
  have hx := h.seq_idle hb
  exact runInv_of_quiet (.inr rfl) h.params ⟨h.ctrl.1, fun _ => rfl⟩
    ⟨by simp, fun _ => ⟨rfl, rfl, rfl, rfl⟩, Nat.zero_le _, nofun⟩ h.buffers (h.quiet (.inl hx)) nofun

theorem legalMaxatt_ne_zero (d : Word) : legalMaxatt d ≠ 0#8 := by
  unfold legalMaxatt
  split
  · decide
  · assumption

/-- WR_CTRL while idle: EN and MAXATT are in use by no read and no send (R214). -/
theorem runInv_ctrl_idle {s : State} (h : RunInv s) (hb : s.busy = false) (d : Word) :
    RunInv { s with ie := d.getLsbD 1, en := d.getLsbD 0, maxatt := legalMaxatt d } := by
  have hx := h.seq_idle hb
  exact runInv_of_quiet (.inl hx) h.params ⟨legalMaxatt_ne_zero d, h.ctrl.2⟩ h.status h.buffers
    (h.quiet (.inl hx)) h.result

/-- WR_CTRL while busy: IE and CANCEL (R214). -/
theorem runInv_ctrl_busy {s : State} (h : RunInv s) (hb : s.busy = true) (i c : Bool) :
    RunInv { s with ie := i, cancel := c } :=
  { h with ctrl := ⟨h.ctrl.1, fun _ => hb⟩ }

/-- WR_FLEN while idle: no send counts on FLEN (R224). -/
theorem runInv_flen {s : State} (h : RunInv s) (hb : s.busy = false) {v : BitVec 9} (hv : v.toNat ≤ 260) :
    RunInv { s with flen := v } := by
  have hx := h.seq_idle hb
  obtain ⟨hm, hmm, _, hrl, hrc⟩ := h.buffers
  exact runInv_of_quiet (.inl hx) h.params h.ctrl h.status ⟨hm, hmm, hv, hrl, hrc⟩ (h.quiet (.inl hx)) h.result

/-- WR_STATUS clears DONE at most (R216). -/
theorem runInv_status {s : State} (h : RunInv s) (d : Word) : RunInv { s with done := s.done && !d.getLsbD 1 } := by
  obtain ⟨hb, hr, he, ht⟩ := h.status
  refine { h with status := ⟨hb, fun hx => ?_, he, ht⟩ }
  obtain ⟨hd, hrest⟩ := hr hx
  exact ⟨by simp [hd], hrest⟩

theorem BusWrite.runInv {s t : State} {i : Instr} (hw : BusWrite s i t) (h : RunInv s) : RunInv t := by
  cases hw with
  | ctrl d =>
    refine RunInv.of_env (s := { s with ie := _, en := _, maxatt := _, cancel := _ }) ?_ .ok s.env
    cases hb : s.busy
    · simpa [hb] using runInv_ctrl_idle h hb d
    · simpa [hb] using runInv_ctrl_busy h hb (d.getLsbD 1) (s.cancel || d.getLsbD 2)
  | status d => exact (runInv_status h d).of_env _ _
  | cmd w hb => exact (runInv_accept h hb w).of_env _ _
  | txtype d hb => exact ⟨h.params, h.ctrl, h.status, h.buffers, h.rab, h.send, h.receive, h.result⟩
  | plen d hb => exact ⟨h.params, h.ctrl, h.status, h.buffers, h.rab, h.send, h.receive, h.result⟩
  | flen d hb hd =>
    have hv : (d.extractLsb' 0 9).toNat ≤ 260 := by
      simp only [BitVec.extractLsb'_toNat]
      omega
    exact (runInv_flen h hb hv).of_env _ _
  | pbuf i d hb =>
    refine (runInv_store h hb fun x hx hx' => windowByte_pbuf ?_ ?_).of_env _ _
    · omega
    · simp only [wordBytes_length] at hx'
      omega
  | fbuf i d hb hi =>
    refine (runInv_store h hb fun x hx hx' => windowByte_fbuf ?_ ?_).of_env _ _
    · omega
    · simp only [wordBytes_length] at hx'
      omega

theorem hostMove_keeps_runInv {s t : State} (h : RunInv s) (ht : hostMove s = .next t) : RunInv t := by
  rcases hostMove_cases ht with ha | ⟨a, i, _, _, hw⟩
  · rw [ha]
    exact h.of_env _ _
  · exact hw.runInv (h.of_env s.resp _)

/-! ## Every step -/

theorem runInv_hardReset {s : State} (h : RunInv s) : RunInv (hardReset s) :=
  runInv_of_quiet (.inl rfl) h.params (by decide : CtrlLegal State.reset) (by decide : StatusLegal State.reset)
    (by decide : BuffersLegal State.reset) ⟨rfl, ⟨Nat.le_refl _, Nat.zero_le _⟩, ⟨rfl, rfl⟩, Nat.zero_le _⟩ nofun

/-- Settles O13: each agent's move keeps the invariant. -/
theorem everyStepKeepsTheInvariant : Obligations.EveryStepKeepsTheInvariant := by
  intro s t h ht
  have hs : RunInv s.scheduled := h.of_env s.resp _
  rw [step_eq] at ht
  cases hm : mover s <;> rw [hm] at ht
  case host => exact hostMove_keeps_runInv hs ht
  case sequencer => exact internalStep_keeps_runInv hs ht
  case tx => exact txMove_keeps_runInv hs ht
  case rx => exact rxMove_keeps_runInv hs ht
  case reset =>
    cases ht
    exact runInv_hardReset hs

/-! ## No step stops -/

/-- The machine goes on: the answer is a next state. -/
def Answers (r : Result) : Prop := ∃ t, r = .next t

theorem answers_next (t : State) : Answers (.next t) := ⟨t, rfl⟩

theorem answers_ite {c : Prop} [Decidable c] {r q : Result} (hr : Answers r) (hq : Answers q) :
    Answers (if c then r else q) := by
  split
  · exact hr
  · exact hq

theorem answers_whenIdle {s : State} {r : Result} (h : Answers r) : Answers (whenIdle s r) :=
  answers_ite (answers_next _) h

/-- Every instruction answers a next state, in every state. -/
theorem exec_answers (i : Instr) (s : State) : Answers (exec i s) := by
  cases i with
  | nop => exact answers_next _
  | encode => exact answers_ite (answers_next _) (answers_next _)
  | send => exact sendStart_next _
  | encsend => exact answers_ite (answers_next _) (sendStart_next _)
  | decode =>
    exact answers_ite (answers_next _) (answers_ite (answers_next _) (answers_ite (answers_next _)
      (answers_ite (answers_next _) (answers_next _))))
  | getframes => exact answers_ite (answers_next _) (answers_next _)
  | wrCtrl d => exact answers_next _
  | rdCtrl => exact answers_next _
  | wrStatus d => exact answers_next _
  | rdStatus => exact answers_next _
  | rdCmd => exact answers_next _
  | rdErrinfo => exact answers_next _
  | rdParam => exact answers_next _
  | rdCnt => exact answers_next _
  | wrRo a d => exact answers_next _
  | wrFlen d => exact answers_whenIdle (answers_ite (answers_next _) (answers_next _))
  | wrFbuf i d => exact answers_ite (answers_whenIdle (answers_next _)) (answers_next _)
  | rdFbuf i => exact answers_ite (answers_whenIdle (answers_next _)) (answers_next _)
  | _ => exact answers_whenIdle (answers_next _)

theorem hostMove_answers (s : State) : Answers (hostMove s) := by
  unfold hostMove
  split
  · exact answers_next s
  · unfold busAccess
    split
    · exact exec_answers _ _
    · exact answers_next _
  · exact answers_ite (exec_answers _ _) (exec_answers _ _)

theorem internalStep_answers (s : State) : Answers (internalStep s) := by
  unfold internalStep
  split
  · unfold startCommand
    split
    · exact exec_answers _ _
    · exact answers_next _
  all_goals exact answers_next _

/-- NEXTCHUNK stops only for a chunk outside FBUF, which K ≤ NCH ≤ 37 rules out (R36, log entry 9). -/
theorem nextChunk_answers {s : State} (hk : s.k ≤ s.nch) (hn : s.nch ≤ 37) : Answers (nextChunk s) := by
  rcases nextChunk_cases s with ⟨_, h⟩ | ⟨_, _, h⟩ | ⟨_, _, _, h⟩ | ⟨hne, _, h37, _⟩
  · exact ⟨_, h⟩
  · exact ⟨_, h⟩
  · exact ⟨_, h⟩
  · omega

theorem txMove_answers {s : State} (h : RunInv s) : Answers (txMove s) := by
  obtain ⟨_, hn, _⟩ := h.send
  unfold txMove
  split
  · exact answers_next s
  · next a rest _ =>
    unfold txAnswer
    split
    · next hx =>
      obtain ⟨_, _, hk, _⟩ := h.sending hx
      cases a.answer with
      | ok => exact nextChunk_answers hk hn
      | err c => exact answers_next _
    · exact answers_next _

theorem rxMove_answers (s : State) : Answers (rxMove s) := by
  unfold rxMove
  split
  · exact answers_next s
  · next a rest _ =>
    refine answers_ite ?_ (answers_next _)
    cases a.answer s.params.rb with
    | err c => exact answers_next _
    | block b => exact answers_ite (answers_next _) (answers_next _)

/-- Settles O14: the one fault is NEXTCHUNK's, and the invariant's bounds on K and NCH rule it out. -/
theorem everyStepAnswersUnderTheInvariant : Obligations.EveryStepAnswersUnderTheInvariant := by
  intro s h
  rw [step_eq]
  cases mover s with
  | host => exact hostMove_answers _
  | sequencer => exact internalStep_answers _
  | tx => exact txMove_answers (h.of_env s.resp _)
  | rx => exact rxMove_answers _
  | reset => exact answers_next _

end Sys2Proof.Machine
end

section
/-! RXQ holds whole valid frames (spec/42_receive.md R178 to R185). -/

namespace Sys2Proof.Machine

/-! ## What keeps the list as it is -/

/-- The result list of `t` is that of `s`: RXLEN, RXCNT and the bytes of RXQ. -/
def KeepsResults (s t : State) : Prop := t.rxlen = s.rxlen ∧ t.rxcnt = s.rxcnt ∧ ∀ i < 1024, t.rxq i = s.rxq i

theorem rxqBytes_congr {s t : State} {n : Nat} (hn : n ≤ 1024) (h : ∀ i < 1024, t.rxq i = s.rxq i) :
    t.rxqBytes n = s.rxqBytes n := by
  refine memory_readBytes_congr fun x hx hx' => ?_
  obtain ⟨i, rfl⟩ := Nat.exists_eq_add_of_le hx
  exact h i (by omega)

theorem KeepsResults.holdsFrames {s t : State} (hk : KeepsResults s t) (hl : s.rxlen.toNat ≤ 1024)
    (h : RxqHoldsFrames s) : RxqHoldsFrames t := by
  obtain ⟨hlen, hcnt, hq⟩ := hk
  obtain ⟨fs, hv, hc, hb⟩ := h
  exact ⟨fs, hv, by rw [hcnt, hc], by rw [hlen, rxqBytes_congr hl hq, hb]⟩

/-- Without frames there is nothing to hold. -/
theorem holdsFrames_of_empty {s : State} (hl : s.rxlen = 0#11) (hc : s.rxcnt = 0#9) : RxqHoldsFrames s :=
  ⟨[], nofun, by simp [hc], by simp [hl, State.rxqBytes]⟩

/-- A store that ends below RXQ leaves the list alone. -/
theorem keepsResults_store (s : State) {a : Nat} {bs : List Byte} (h : a + bs.length ≤ rxqBase) :
    KeepsResults s (s.store a bs) :=
  ⟨rfl, rfl, fun _ _ => memory_read_writeBytes_outside _ _ (.inr (by omega))⟩

theorem keepsResults_encodeFrame {s : State} (hp : payloadTooLong s = false) : KeepsResults s (encodeFrame s) :=
  keepsResults_store s (by have := (encodeFrame_size hp).1; simp only [fbufBase, rxqBase]; omega)

/-! ## A frame appended -/

/-- What CONSUME takes is a valid frame: its XOR, parity included, is 0 (R120, R182). -/
theorem FrameReady.validFrame_rabFrame {s : State} (h : FrameReady s) : validFrame (rabFrame s) = true := by
  have hlen := h.length_rabFrame
  have hw := h.whole
  have h2 := h.long
  have hx : xorBytes (rabFrame s) = 0#8 := by
    have hlt : 1 + rabLen s < s.rab.length := by omega
    have hsplit : rabFrame s = s.rab.take (1 + rabLen s) ++ [rabParityByte s] := by
      rw [rabFrame, show 2 + rabLen s = 1 + rabLen s + 1 by omega, List.take_succ_eq_append_getElem hlt, rabParityByte,
        List.getD_eq_getElem _ _ hlt]
    rw [hsplit, xorBytes_append]
    have : xorBytes (s.rab.take (1 + rabLen s)) = rabParityByte s := h.parity
    simp [this]
  match hr : s.rab with
  | [] => simp [hr] at hw
  | [_] => simp [hr] at hw; omega
  | a :: l :: rest =>
    have hl : rabLen s = l.toNat := by simp [rabLen, hr]
    have hf : rabFrame s = a :: l :: rest.take l.toNat := by
      rw [rabFrame, hr, hl, Nat.add_comm]
      rfl
    rw [hf] at hlen hx ⊢
    simp only [List.length_cons] at hlen
    simp only [validFrame, Config.minDeclLen, Bool.and_eq_true, decide_eq_true_eq]
    exact ⟨⟨by omega, by omega⟩, hx⟩

/-- The append puts the frame behind the frames that are there (R183). -/
theorem FrameReady.holdsFrames {s : State} (hr : FrameReady s) (hb : BuffersLegal s) (h : RxqHoldsFrames s) :
    RxqHoldsFrames (appendFrame s) := by
  obtain ⟨fs, hv, hc, hq⟩ := h
  have hkeep : Memory.readBytes (appendFrame s).mem rxqBase s.rxlen.toNat = s.rxqBytes s.rxlen.toNat :=
    memory_readBytes_congr fun x _ hx => memory_read_writeBytes_outside _ _ (.inl hx)
  have hnew : Memory.readBytes (appendFrame s).mem (rxqBase + s.rxlen.toNat) (2 + rabLen s) = rabFrame s := by
    rw [← hr.length_rabFrame]
    exact memory_readBytes_writeBytes _ _ hb.1
  refine ⟨fs ++ [rabFrame s], ?_, ?_, ?_⟩
  · simpa [or_imp, forall_and] using ⟨hv, hr.validFrame_rabFrame⟩
  · rw [rxcnt_appendFrame hb, List.length_append, hc]
    rfl
  · rw [State.rxqBytes, hr.rxlen_appendFrame, memory_readBytes_append, hkeep, hnew]
    simp [hq]

theorem FramesTaken.holdsFrames {s u : State} (ht : FramesTaken s u) (hb : BuffersLegal s) (h : RxqHoldsFrames s) :
    BuffersLegal u ∧ RxqHoldsFrames u := by
  induction ht with
  | none => exact ⟨hb, h⟩
  | more hr _ ih => exact ih (hr.buffersLegal hb) (hr.holdsFrames hb h)

/-! ## The parts of a step -/

/-- A completion keeps the list or, after an error of GETFRAMES, empties it (R185). -/
theorem holdsFrames_finish {s : State} (e : ErrKind) (info : Word) (h : RxqHoldsFrames s) :
    RxqHoldsFrames (finish e info s) := by
  by_cases hg : s.isGetframes ∧ e ≠ .ok
  · exact holdsFrames_of_empty (by rw [finish_rxlen, if_pos hg]) (by rw [finish_rxcnt, if_pos hg])
  · have hl : (finish e info s).rxlen = s.rxlen := by rw [finish_rxlen, if_neg hg]
    have hc : (finish e info s).rxcnt = s.rxcnt := by rw [finish_rxcnt, if_neg hg]
    obtain ⟨fs, hv, hn, hq⟩ := h
    exact ⟨fs, hv, by rw [hc, hn], by rw [hl, hq]; rfl⟩

theorem holdsFrames_nextChunk {s t : State} (ht : nextChunk s = .next t) (h : RxqHoldsFrames s) : RxqHoldsFrames t := by
  rcases nextChunk_cases s with ⟨_, hn⟩ | ⟨_, _, hn⟩ | ⟨_, _, _, hn⟩ | ⟨_, _, _, hn⟩ <;> rw [hn] at ht <;> cases ht
  · exact holdsFrames_finish _ _ h
  · exact holdsFrames_finish _ _ h
  · exact h

theorem holdsFrames_sendStart {s t : State} (ht : sendStart s = .next t) (h : RxqHoldsFrames s) : RxqHoldsFrames t := by
  rcases sendStart_cases s with ⟨_, hn⟩ | ⟨_, _, hn⟩ | ⟨_, _, hn⟩ <;> rw [hn] at ht
  · cases ht
    exact holdsFrames_finish _ _ h
  · cases ht
    exact holdsFrames_finish _ _ h
  · exact holdsFrames_nextChunk ht h

theorem holdsFrames_attempt {s : State} (h : RxqHoldsFrames s) : RxqHoldsFrames (attempt s) := by
  rcases attempt_cases s with ⟨_, hs⟩ | ⟨_, hs⟩ <;> rw [hs]
  · exact holdsFrames_finish _ _ h
  · exact h

theorem holdsFrames_fill {s : State} (hb : BuffersLegal s) (h : RxqHoldsFrames s) : RxqHoldsFrames (fill s) := by
  obtain ⟨u, hu, he⟩ := fill_cases s
  obtain ⟨hb', h'⟩ := hu.holdsFrames hb h
  generalize fill s = t at he
  cases he with
  | badLength => exact holdsFrames_finish _ _ h'
  | badParity => exact holdsFrames_finish _ _ h'
  | overflow => exact holdsFrames_finish _ _ h'
  | complete hr => exact holdsFrames_finish _ _ (hr.holdsFrames hb' h')
  | readsOn _ => exact holdsFrames_attempt (s := { u with att := 0 }) h'

/-! ## The moves of the agents -/

theorem BusWrite.keepsResults {s t : State} {i : Instr} (hw : BusWrite s i t) : KeepsResults s t := by
  cases hw with
  | pbuf i d hb => exact keepsResults_store s (by simp only [pbufBase, rxqBase, wordBytes_length]; omega)
  | fbuf i d hb hi => exact keepsResults_store s (by simp only [fbufBase, rxqBase, wordBytes_length]; omega)
  | _ => exact ⟨rfl, rfl, fun _ _ => rfl⟩

theorem hostMove_keepsResults {s t : State} (ht : hostMove s = .next t) : KeepsResults s t := by
  rcases hostMove_cases ht with ha | ⟨a, i, _, _, hw⟩
  · rw [ha]
    exact ⟨rfl, rfl, fun _ _ => rfl⟩
  · exact hw.keepsResults

theorem Starts.holdsFrames {s t : State} (hs : Starts s t) (hb : BuffersLegal s) (h : RxqHoldsFrames s) :
    RxqHoldsFrames t := by
  have hl := rxlen_le_of_buffersLegal hb
  cases hs with
  | ends e info _ _ => exact holdsFrames_finish _ _ h
  | encodes _ hp => exact holdsFrames_finish _ _ ((keepsResults_encodeFrame hp).holdsFrames hl h)
  | decodes a l p _ => exact holdsFrames_finish _ _ h
  | sends _ hs => exact holdsFrames_sendStart hs h
  | refuses info _ => exact holdsFrames_finish _ _ h
  | encsends _ hp hs => exact holdsFrames_sendStart hs ((keepsResults_encodeFrame hp).holdsFrames hl h)
  | closed info _ => exact holdsFrames_finish _ _ (holdsFrames_of_empty rfl rfl)
  | receives _ _ =>
    obtain ⟨hm, hmm, hfl, _, _⟩ := hb
    exact holdsFrames_fill ⟨hm, hmm, hfl, Nat.zero_le _, Nat.zero_le _⟩ (holdsFrames_of_empty rfl rfl)

theorem internalStep_holdsFrames {s t : State} (ht : internalStep s = .next t) (hb : BuffersLegal s)
    (h : RxqHoldsFrames s) : RxqHoldsFrames t := by
  rcases internalStep_cases ht with ⟨_, hs⟩ | ⟨_, rfl⟩ | ⟨_, rfl⟩
  · exact hs.holdsFrames hb h
  · exact holdsFrames_attempt h
  · exact h

theorem txMove_holdsFrames {s t : State} (ht : txMove s = .next t) (h : RxqHoldsFrames s) : RxqHoldsFrames t := by
  rcases txMove_cases ht with ⟨e, rfl, _⟩ | ⟨a, rest, _, _, ht⟩
  · exact h
  · cases ha : a.answer <;> rw [ha] at ht
    case ok => exact holdsFrames_nextChunk ht h
    case err c =>
      cases ht
      exact holdsFrames_finish _ _ h

theorem rxMove_holdsFrames {s t : State} (ht : rxMove s = .next t) (hb : BuffersLegal s) (h : RxqHoldsFrames s) :
    RxqHoldsFrames t := by
  rcases rxMove_cases ht with ⟨e, rfl, _⟩ | ⟨a, rest, _, _, ht⟩
  · exact h
  · cases ha : a.answer s.params.rb <;> rw [ha] at ht
    case err c =>
      cases ht
      exact holdsFrames_finish _ _ h
    case block b =>
      simp only [rxAnswered] at ht
      split at ht <;> cases ht
      · unfold noDataYet
        split
        · exact holdsFrames_finish _ _ h
        · exact h
      · exact holdsFrames_fill hb h

/-- Settles O15: the list is kept by the host, extended by good frames, and else emptied. -/
theorem everyStepKeepsWholeFramesInRxq : Obligations.EveryStepKeepsWholeFramesInRxq := by
  intro s t hi h ht
  have hb := hi.buffers
  rw [step_eq] at ht
  cases hm : mover s <;> rw [hm] at ht
  case host => exact (hostMove_keepsResults ht).holdsFrames (rxlen_le_of_buffersLegal hb) h
  case sequencer => exact internalStep_holdsFrames ht hb h
  case tx => exact txMove_holdsFrames ht h
  case rx => exact rxMove_holdsFrames ht hb h
  case reset =>
    cases ht
    exact holdsFrames_of_empty rfl rfl

end Sys2Proof.Machine
end

section
/-! Who may change what: BUSY and DONE, the operands, DRES, the result list, FLEN and FBUF (spec/10_state.md R22 to
R38), and what ends a command or its wait (R42, R256, R287). -/

namespace Sys2Proof.Machine

/-! ## What one move of the sequencer or of a transport leaves alone -/

/-- BUSY and DONE stay as they are, or the command ends. -/
def KeepsOrEnds (s t : State) : Prop :=
  (t.busy = s.busy ∧ t.done = s.done) ∨ (t.busy = false ∧ t.done = true ∧ t.seq = .idle)

theorem errKind_eq_cancelled {e : ErrKind} (h : e.code = 7#4) : e = .cancelled := by
  revert h
  cases e <;> decide

section Leaves
variable {s t : State} (h : Leaves s t)
include h

theorem Leaves.dresWord : t.dresWord = s.dresWord := by
  cases h with
  | completed hu e info _ => exact hu.dresWord
  | goesOn ht => exact ht.dresWord

theorem Leaves.frameBuffer : t.flen = s.flen ∧ ∀ i < 260, t.fbuf i = s.fbuf i := by
  cases h with
  | completed hu e info _ => exact ⟨hu.flen, fun _ hi => hu.fbuf hi⟩
  | goesOn ht => exact ⟨ht.flen, fun _ hi => ht.fbuf hi⟩

theorem Leaves.keepsOrEnds : KeepsOrEnds s t := by
  cases h with
  | completed hu e info _ => exact .inr ⟨rfl, rfl, rfl⟩
  | goesOn ht => exact .inl ⟨ht.busy, ht.done⟩

/-- A command that ends leaves CANCEL = 0, and ends with Cancelled only when CANCEL was 1. -/
theorem Leaves.cancel (hb : s.busy = true) (hi : t.busy = false) :
    t.cancel = false ∧ (t.errcode = 7#4 → s.cancel = true) := by
  cases h with
  | completed hu e info hc => exact ⟨rfl, fun he => hc (errKind_eq_cancelled he)⟩
  | goesOn ht => simp [ht.busy, hb] at hi

end Leaves

/-- What a command reads: EN, MAXATT, TXTYPE, PLEN, the bytes of PBUF and the parameters. -/
def KeepsOperands (s t : State) : Prop :=
  t.params = s.params ∧ t.en = s.en ∧ t.maxatt = s.maxatt ∧ t.txtype = s.txtype ∧ t.plen = s.plen
    ∧ ∀ i < 256, t.pbuf i = s.pbuf i

theorem KeepsOperands.trans {s t u : State} (h : KeepsOperands s t) (g : KeepsOperands t u) : KeepsOperands s u := by
  obtain ⟨h1, h2, h3, h4, h5, h6⟩ := h
  obtain ⟨g1, g2, g3, g4, g5, g6⟩ := g
  exact ⟨g1.trans h1, g2.trans h2, g3.trans h3, g4.trans h4, g5.trans h5, fun i hi => (g6 i hi).trans (h6 i hi)⟩

theorem Leaves.operands {s t : State} (h : Leaves s t) : KeepsOperands s t := by
  cases h with
  | completed hu e info _ => exact ⟨hu.params, hu.en, hu.maxatt, hu.txtype, hu.plen, fun _ hi => hu.pbuf hi⟩
  | goesOn ht => exact ⟨ht.params, ht.en, ht.maxatt, ht.txtype, ht.plen, fun _ hi => ht.pbuf hi⟩

theorem encodeFrame_operands (s : State) : KeepsOperands s (encodeFrame s) :=
  ⟨rfl, rfl, rfl, rfl, rfl, fun _ _ => memory_read_writeBytes_outside _ _ (.inl (by
    simp only [pbufBase, fbufBase]; omega))⟩

theorem Starts.operands {s t : State} (h : Starts s t) : KeepsOperands s t := by
  rcases h.leaves_cases with h | ⟨_, _, h⟩ | ⟨a, l, p, _, rfl⟩
  · exact h.operands
  · exact (encodeFrame_operands s).trans h.operands
  · exact ⟨rfl, rfl, rfl, rfl, rfl, fun _ _ => rfl⟩

theorem Starts.keepsOrEnds {s t : State} (h : Starts s t) : KeepsOrEnds s t := by
  rcases h.leaves_cases with h | ⟨_, _, h⟩ | ⟨a, l, p, _, rfl⟩
  · exact h.keepsOrEnds
  · exact h.keepsOrEnds
  · exact .inr ⟨rfl, rfl, rfl⟩

theorem BusWrite.operands {s t : State} {i : Instr} (hw : BusWrite s i t) (hb : s.busy = true) :
    KeepsOperands s t := by
  rcases hw.of_busy hb with ⟨b, c, rfl⟩ | ⟨b, rfl⟩ <;> exact ⟨rfl, rfl, rfl, rfl, rfl, fun _ _ => rfl⟩

theorem hostMove_operands {s t : State} (ht : hostMove s = .next t) (hb : s.busy = true) : KeepsOperands s t := by
  rcases hostMove_cases ht with ha | ⟨a, i, _, _, hw⟩
  · rw [ha]
    exact ⟨rfl, rfl, rfl, rfl, rfl, fun _ _ => rfl⟩
  · exact hw.operands hb

/-- Settles O17: a busy host access, a command and a transport's answer all leave the operands alone. -/
theorem operandsStandStillWhileBusy : Obligations.OperandsStandStillWhileBusy := by
  intro s t hb hr ht
  suffices h : KeepsOperands s.scheduled t from h
  rw [step_eq] at ht
  cases hm : mover s <;> rw [hm] at ht
  case host => exact hostMove_operands ht hb
  case sequencer =>
    rcases internalStep_cases ht with ⟨_, hs⟩ | ⟨_, rfl⟩ | ⟨_, rfl⟩
    · exact hs.operands
    · exact (attempt_leaves _).operands
    · exact ⟨rfl, rfl, rfl, rfl, rfl, fun _ _ => rfl⟩
  case tx => exact (txMove_leaves ht).operands
  case rx => exact (rxMove_leaves ht).operands
  case reset => exact absurd hm hr

/-! ## DRES (R30) -/

theorem hostMove_dresWord {s t : State} (ht : hostMove s = .next t) : t.dresWord = s.dresWord := by
  rcases hostMove_cases ht with ha | ⟨a, i, _, _, hw⟩
  · rw [ha]
    rfl
  · cases hw <;> rfl

/-- Settles O18: of all moves only the start of a DECODE that finds no error writes DRES. -/
theorem onlyASuccessfulDecodeWritesDres : Obligations.OnlyASuccessfulDecodeWritesDres := by
  intro s t ht hne
  rw [step_eq] at ht
  cases hm : mover s <;> rw [hm] at ht
  case host => exact absurd (hostMove_dresWord ht) hne
  case sequencer =>
    rcases internalStep_cases ht with ⟨hx, hs⟩ | ⟨_, rfl⟩ | ⟨_, rfl⟩
    · rcases hs.leaves_cases with h | ⟨_, _, h⟩ | ⟨a, l, p, hc, rfl⟩
      · exact absurd h.dresWord hne
      · exact absurd h.dresWord hne
      · exact .inr ⟨rfl, hx, hc, rfl, rfl⟩
    · exact absurd (attempt_leaves _).dresWord hne
    · exact absurd rfl hne
  case tx => exact absurd (txMove_leaves ht).dresWord hne
  case rx => exact absurd (rxMove_leaves ht).dresWord hne
  case reset => exact .inl rfl

/-! ## The result list (R31 to R34) -/

theorem hostMove_cntWord {s t : State} (ht : hostMove s = .next t) : t.cntWord = s.cntWord := by
  rcases hostMove_cases ht with ha | ⟨a, i, _, _, hw⟩
  · rw [ha]
    rfl
  · cases hw <;> rfl

/-- Settles O19: the host's writes go to registers of its own, and its window writes end below RXQ. -/
theorem hostCannotChangeTheResultList : Obligations.HostCannotChangeTheResultList := by
  intro s t hm ht
  rw [step_eq, hm] at ht
  obtain ⟨hl, hc, hq⟩ := hostMove_keepsResults ht
  have hn := hostMove_cntWord ht
  exact ⟨hl, hc, hn, hq⟩

/-! ## FLEN and FBUF (R29, R34) -/

theorem BusWrite.frameBuffer {s t : State} {i : Instr} (hw : BusWrite s i t) :
    (t.flen = s.flen ∧ ∀ j < 260, t.fbuf j = s.fbuf j) ∨ (∃ d, i = .wrFlen d) ∨ ∃ n d, i = .wrFbuf n d := by
  cases hw with
  | flen d _ _ => exact .inr (.inl ⟨d, rfl⟩)
  | fbuf n d _ _ => exact .inr (.inr ⟨n, d, rfl⟩)
  | pbuf n d _ =>
    refine .inl ⟨rfl, fun j _ => memory_read_writeBytes_outside _ _ (.inr ?_)⟩
    simp only [pbufBase, fbufBase, wordBytes_length]
    omega
  | _ => exact .inl ⟨rfl, fun _ _ => rfl⟩

/-- Settles O20: every other move leaves FLEN and FBUF alone. -/
theorem frameBufferWriters : Obligations.FrameBufferWriters := by
  intro s t ht hne
  have hkeep : ¬ (t.flen = s.flen ∧ ∀ i < 260, t.fbuf i = s.fbuf i) := by
    rintro ⟨hf, hb⟩
    rcases hne with hne | ⟨i, hi, hne⟩
    · exact hne hf
    · exact hne (hb i hi)
  rw [step_eq] at ht
  cases hm : mover s <;> rw [hm] at ht
  case host =>
    rcases hostMove_cases ht with ha | ⟨a, i, hl, hd, hw⟩
    · rw [ha] at hkeep
      exact absurd ⟨rfl, fun _ _ => rfl⟩ hkeep
    · rcases hw.frameBuffer with h | ⟨d, rfl⟩ | ⟨n, d, rfl⟩
      · exact absurd h hkeep
      · exact .inr (.inr ⟨a, ⟨hm, hl⟩, .inl ⟨d, hd⟩⟩)
      · exact .inr (.inr ⟨a, ⟨hm, hl⟩, .inr ⟨n, d, hd⟩⟩)
  case sequencer =>
    rcases internalStep_cases ht with ⟨hx, hs⟩ | ⟨_, rfl⟩ | ⟨_, rfl⟩
    · rcases hs.leaves_cases with h | ⟨hc, _, _⟩ | ⟨a, l, p, _, rfl⟩
      · exact absurd h.frameBuffer hkeep
      · exact .inr (.inl ⟨rfl, hx, hc⟩)
      · exact absurd ⟨rfl, fun _ _ => rfl⟩ hkeep
    · exact absurd (attempt_leaves _).frameBuffer hkeep
    · exact absurd ⟨rfl, fun _ _ => rfl⟩ hkeep
  case tx => exact absurd (txMove_leaves ht).frameBuffer hkeep
  case rx => exact absurd (rxMove_leaves ht).frameBuffer hkeep
  case reset => exact .inl rfl

/-! ## BUSY and DONE (R38, R212, R241) -/

/-- A host write accepts a command, or leaves BUSY and SEQ as they are and sets no DONE. -/
theorem BusWrite.busy_done {s t : State} {i : Instr} (hw : BusWrite s i t) :
    (s.busy = false ∧ t.busy = true ∧ ∃ w, i = .wrCmd w ∧ t.cmd = w ∧ t.seq = .exec ∧ t.done = false)
      ∨ (t.busy = s.busy ∧ t.seq = s.seq ∧ (s.done = false → t.done = false)) := by
  cases hw with
  | cmd w hb => exact .inl ⟨hb, rfl, w, rfl, rfl, rfl, rfl⟩
  | status d => exact .inr ⟨rfl, rfl, fun h => by simp [h]⟩
  | _ => exact .inr ⟨rfl, rfl, id⟩

theorem hostMove_busy_done {s t : State} (ht : hostMove s = .next t) :
    (s.busy = false ∧ ∃ a w, s.env.host.head? = some (.access a) ∧ decodeBus a = .ok (.wrCmd w)
        ∧ t.cmd = w ∧ t.seq = .exec ∧ t.done = false)
      ∨ (t.busy = s.busy ∧ t.seq = s.seq ∧ (s.done = false → t.done = false)) := by
  rcases hostMove_cases ht with ha | ⟨a, i, hl, hd, hw⟩
  · rw [ha]
    exact .inr ⟨rfl, rfl, id⟩
  · rcases hw.busy_done with ⟨hb, _, w, rfl, hc, hx, hd'⟩ | h
    · exact .inl ⟨hb, a, w, hl, hd, hc, hx, hd'⟩
    · exact .inr h

/-- A move of the sequencer or a transport completes only a command in progress. -/
theorem internalStep_keepsOrEnds {s t : State} (ht : internalStep s = .next t) :
    KeepsOrEnds s t ∧ (s.seq = .idle → t = s) := by
  rcases internalStep_cases ht with ⟨hx, hs⟩ | ⟨hx, rfl⟩ | ⟨_, rfl⟩
  · exact ⟨hs.keepsOrEnds, fun hi => by simp [hi] at hx⟩
  · exact ⟨(attempt_leaves s).keepsOrEnds, fun hi => by simp [hi] at hx⟩
  · exact ⟨.inl ⟨rfl, rfl⟩, fun _ => rfl⟩

theorem txMove_done_of_idle {s t : State} (ht : txMove s = .next t) (hi : s.seq = .idle) : t.done = s.done := by
  rcases txMove_cases ht with ⟨e, rfl, _⟩ | ⟨a, rest, _, hx, _⟩
  · rfl
  · simp [hi] at hx

theorem rxMove_done_of_idle {s t : State} (ht : rxMove s = .next t) (hi : s.seq = .idle) : t.done = s.done := by
  rcases rxMove_cases ht with ⟨e, rfl, _⟩ | ⟨a, rest, _, hx, _⟩
  · rfl
  · simp [hi] at hx

/-- Such a move sets no BUSY, and where it does nothing in IDLE it sets DONE only by ending a command in progress. -/
theorem KeepsOrEnds.sets {s t : State} (h : KeepsOrEnds s t) (hi : RunInv s) (hd : s.seq = .idle → t.done = s.done) :
    (s.busy = false → t.busy = false)
      ∧ (s.done = false → t.done = true → s.busy = true ∧ t.busy = false ∧ t.seq = .idle) := by
  rcases h with ⟨hb, hd'⟩ | ⟨hb, _, hx⟩
  · exact ⟨fun h => hb.trans h, fun h h' => by simp [hd', h] at h'⟩
  · refine ⟨fun _ => hb, fun h h' => ⟨?_, hb, hx⟩⟩
    by_contra hn
    have := hd (hi.seq_idle (by simpa using hn))
    simp [h, h'] at this

/-- Settles O16: the host's move sets BUSY by acceptance only, and the other moves keep both flags or complete. -/
theorem onlyAcceptanceSetsBusyAndOnlyCompletionSetsDone :
    Obligations.OnlyAcceptanceSetsBusyAndOnlyCompletionSetsDone := by
  intro s t hi ht
  have hs : RunInv s.scheduled := hi.of_env s.resp _
  rw [step_eq] at ht
  cases hm : mover s <;> rw [hm] at ht
  case host =>
    rcases hostMove_busy_done ht with ⟨hb, a, w, hl, hd, hc, hx, hdone⟩ | ⟨hb, _, hd⟩
    · exact ⟨fun _ _ => ⟨a, w, ⟨hm, hl⟩, hd, hc, hx, hdone⟩, fun _ h => by simp [hdone] at h⟩
    · exact ⟨fun h h' => by simp [hb, h] at h', fun h h' => by simp [hd h] at h'⟩
  case reset =>
    cases ht
    exact ⟨nofun, nofun⟩
  all_goals
    suffices h : KeepsOrEnds s.scheduled t ∧ (s.scheduled.seq = .idle → t.done = s.scheduled.done) by
      obtain ⟨hbusy, hdone⟩ := h.1.sets hs h.2
      exact ⟨fun h h' => by simp [hbusy h] at h', hdone⟩
  case sequencer =>
    obtain ⟨h, hid⟩ := internalStep_keepsOrEnds ht
    exact ⟨h, fun hx => by rw [hid hx]⟩
  case tx => exact ⟨(txMove_leaves ht).keepsOrEnds, txMove_done_of_idle ht⟩
  case rx => exact ⟨(rxMove_leaves ht).keepsOrEnds, rxMove_done_of_idle ht⟩

/-! ## The wait for a silent transport (R42, R287) -/

/-- The command waits on: what the wait is for, what the ports show and what has been handed over are as before, and no
answer comes that did not. -/
def WaitsOn (s t : State) : Prop :=
  t.busy = s.busy ∧ t.seq = s.seq ∧ (s.done = false → t.done = false) ∧ t.cmd = s.cmd ∧ t.k = s.k ∧ t.rab = s.rab
    ∧ t.txPort = s.txPort ∧ t.rxReq = s.rxReq ∧ t.env.sent = s.env.sent
    ∧ (s.env.tx = [] → t.env.tx = []) ∧ (s.env.rx = [] → t.env.rx = [])

theorem BusWrite.waitsOn {s t : State} {i : Instr} (hw : BusWrite s i t) (hb : s.busy = true) : WaitsOn s t := by
  rcases hw.of_busy hb with ⟨b, c, rfl⟩ | ⟨b, rfl⟩
  · exact ⟨rfl, rfl, id, rfl, rfl, rfl, rfl, rfl, rfl, id, id⟩
  · exact ⟨rfl, rfl, fun h => by simp [h], rfl, rfl, rfl, rfl, rfl, rfl, id, id⟩

theorem hostMove_waitsOn {s t : State} (ht : hostMove s = .next t) (hb : s.busy = true) : WaitsOn s t := by
  rcases hostMove_cases ht with ha | ⟨a, i, _, _, hw⟩
  · rw [ha]
    exact ⟨rfl, rfl, id, rfl, rfl, rfl, rfl, rfl, rfl, id, id⟩
  · exact hw.waitsOn hb

/-- Settles O22: no move but reset ends the wait, because the one that would is an answer. -/
theorem silentTransportHangsTheCommand : Obligations.SilentTransportHangsTheCommand := by
  intro s t hb hw hr ht
  suffices h : WaitsOn s.scheduled t by
    obtain ⟨h1, h2, h3, h4, h5, h6, h7, h8, h9, htx, hrx⟩ := h
    exact ⟨h1.trans hb, hw.imp (fun ⟨hx, he⟩ => ⟨h2.trans hx, htx he⟩) (fun ⟨hx, he⟩ => ⟨h2.trans hx, hrx he⟩),
      h2, h3, h4, h5, h6, h7, h8, h9⟩
  rw [step_eq] at ht
  cases hm : mover s <;> rw [hm] at ht
  case host => exact hostMove_waitsOn ht hb
  case sequencer =>
    rcases internalStep_cases ht with ⟨hx, _⟩ | ⟨hx, _⟩ | ⟨_, rfl⟩
    · rcases hw with ⟨h, _⟩ | ⟨h, _⟩ <;> cases h.symm.trans hx
    · rcases hw with ⟨h, _⟩ | ⟨h, _⟩ <;> cases h.symm.trans hx
    · exact ⟨rfl, rfl, id, rfl, rfl, rfl, rfl, rfl, rfl, id, id⟩
  case tx =>
    rcases txMove_cases ht with ⟨e, rfl, he⟩ | ⟨a, rest, hl, hx, _⟩
    · exact ⟨rfl, rfl, id, rfl, rfl, rfl, rfl, rfl, rfl, he, id⟩
    · rcases hw with ⟨_, he⟩ | ⟨h, _⟩
      · cases he.symm.trans hl
      · cases h.symm.trans hx
  case rx =>
    rcases rxMove_cases ht with ⟨e, rfl, he⟩ | ⟨a, rest, hl, hx, _⟩
    · exact ⟨rfl, rfl, id, rfl, rfl, rfl, rfl, rfl, rfl, id, he⟩
    · rcases hw with ⟨h, _⟩ | ⟨_, he⟩
      · cases h.symm.trans hx
      · cases he.symm.trans hl
  case reset => exact absurd hm hr

/-! ## Cancellation (R256, R288) -/

/-- A move that ends the command clears CANCEL, and ends it with ERRCODE 7 only with CANCEL = 1 and where `p` holds. -/
def EndsClearingCancel (s t : State) (p : Prop) : Prop :=
  t.busy = false → t.cancel = false ∧ (t.errcode = 7#4 → s.cancel = true ∧ p)

theorem Leaves.endsClearingCancel {s t : State} {p : Prop} (h : Leaves s t) (hb : s.busy = true) (hp : p) :
    EndsClearingCancel s t p := fun hi =>
  ⟨(h.cancel hb hi).1, fun he => ⟨(h.cancel hb hi).2 he, hp⟩⟩

/-- A completion with another error is no matter of CANCEL. -/
theorem endsClearingCancel_finish {s u : State} {e : ErrKind} (info : Word) (p : Prop) (he : e ≠ .cancelled) :
    EndsClearingCancel s (finish e info u) p := fun _ =>
  ⟨rfl, fun h => absurd (errKind_eq_cancelled h) he⟩

theorem Starts.endsClearingCancel {s t : State} (h : Starts s t) (hb : s.busy = true) :
    EndsClearingCancel s t (s.cmd = 2#32 ∨ s.cmd = 3#32 ∨ s.cmd = 5#32) := by
  cases h with
  | ends e info he _ => exact endsClearingCancel_finish _ _ he
  | encodes _ _ => exact endsClearingCancel_finish _ _ nofun
  | decodes a l p _ => exact endsClearingCancel_finish _ _ nofun
  | sends hc h => exact (sendStart_leaves h).endsClearingCancel hb (.inl hc)
  | refuses info _ => exact endsClearingCancel_finish _ _ nofun
  | encsends hc _ h => exact (sendStart_leaves h).endsClearingCancel hb (.inr (.inl hc))
  | closed info _ => exact endsClearingCancel_finish _ _ nofun
  | receives hc _ => exact (fill_leaves _).endsClearingCancel hb (.inr (.inr hc))

theorem endsClearingCancel_of_busy {s t : State} (hb : t.busy = true) (p : Prop) : EndsClearingCancel s t p :=
  fun hi => by simp [hb] at hi

theorem internalStep_endsClearingCancel {s t : State} (ht : internalStep s = .next t) (hb : s.busy = true) :
    EndsClearingCancel s t
      ((s.seq = .exec ∧ (s.cmd = 2#32 ∨ s.cmd = 3#32 ∨ s.cmd = 5#32)) ∨ s.seq = .bkoff) := by
  rcases internalStep_cases ht with ⟨hx, hs⟩ | ⟨hx, rfl⟩ | ⟨_, rfl⟩
  · exact fun hi => (hs.endsClearingCancel hb hi).imp_right fun h he => ⟨(h he).1, .inl ⟨hx, (h he).2⟩⟩
  · exact (attempt_leaves s).endsClearingCancel hb (.inr hx)
  · exact endsClearingCancel_of_busy hb _

theorem txAck_err_of_answer {a : TxAck} (h : a.answer = .ok) : a.err = false := by
  unfold TxAck.answer at h
  split at h
  · cases h
  · next he => simpa using he

theorem txMove_endsClearingCancel {s t : State} (ht : txMove s = .next t) (hb : s.busy = true) :
    EndsClearingCancel s t (∃ a, s.seq = .txw ∧ s.env.tx.head? = some a ∧ a.err = false) := by
  rcases txMove_cases ht with ⟨e, rfl, _⟩ | ⟨a, rest, hl, hx, ht⟩
  · exact endsClearingCancel_of_busy hb _
  · cases ha : a.answer <;> rw [ha] at ht
    case ok =>
      exact (nextChunk_leaves ht).endsClearingCancel hb ⟨a, hx, by simp [hl], txAck_err_of_answer ha⟩
    case err c =>
      cases ht
      exact endsClearingCancel_finish _ _ nofun

/-- An answer with a block is no error, and the block is what the data signals carry (R95). -/
theorem rxAck_of_answer {rb : Nat} {a : RxAck} {b : List Byte} (h : a.answer rb = .block b) :
    a = ⟨false, a.code, a.data⟩ ∧ carries rb a.data b := by
  unfold RxAck.answer at h
  split at h
  · cases h
  · next he =>
    cases h
    obtain ⟨err, code, data⟩ := a
    simp only [Bool.not_eq_true] at he
    exact ⟨by rw [he], unpackBlock_length rb data, fun i hi => unpackBlock_getElem rb data i hi⟩

theorem exists_ne_zero_of_not_allZero {b : List Byte} (h : allZero b ≠ true) : ∃ x ∈ b, x ≠ 0#8 := by
  simpa [allZero] using h

theorem rxMove_endsClearingCancel {s t : State} (ht : rxMove s = .next t) (hb : s.busy = true) :
    EndsClearingCancel s t (∃ b c d, s.seq = .rxw ∧ s.env.rx.head? = some ⟨false, c, d⟩
      ∧ carries s.params.rb d b ∧ ∃ x ∈ b, x ≠ 0#8) := by
  rcases rxMove_cases ht with ⟨e, rfl, _⟩ | ⟨a, rest, hl, hx, ht⟩
  · exact endsClearingCancel_of_busy hb _
  · cases ha : a.answer s.params.rb <;> rw [ha] at ht
    case err c =>
      cases ht
      exact endsClearingCancel_finish _ _ nofun
    case block b =>
      obtain ⟨hae, hcar⟩ := rxAck_of_answer ha
      simp only [rxAnswered] at ht
      split at ht <;> cases ht
      · unfold noDataYet
        split
        · exact endsClearingCancel_finish _ _ nofun
        · exact endsClearingCancel_of_busy hb _
      · next hz =>
        exact (fill_leaves _).endsClearingCancel hb
          ⟨b, a.code, a.data, hx, by rw [hl, ← hae]; rfl, hcar, exists_ne_zero_of_not_allZero hz⟩

/-- Settles O60: the host ends no command, and each other move that does clears CANCEL, with ERRCODE 7 at a check point
only. -/
theorem cancelActsOnlyAtCheckPoints : Obligations.CancelActsOnlyAtCheckPoints := by
  intro s t hi hb ht
  rw [step_eq] at ht
  have hhost : mover s = .host → t.busy = true ∧ t.seq = s.seq := by
    intro hm
    rw [hm] at ht
    obtain ⟨h1, h2, _⟩ := hostMove_waitsOn ht hb
    exact ⟨h1.trans hb, h2⟩
  refine ⟨hhost, ?_⟩
  suffices h : EndsClearingCancel s t _ from ⟨fun h' => (h h').1, fun h' => (h h').2⟩
  cases hm : mover s <;> rw [hm] at ht
  case host => exact endsClearingCancel_of_busy (hhost hm).1 _
  case sequencer =>
    refine fun h' => (internalStep_endsClearingCancel ht hb h').imp_right fun h he => ⟨(h he).1, ?_⟩
    rcases (h he).2 with ⟨hx, hc⟩ | hx
    · exact .inl ⟨rfl, hx, hc⟩
    · exact .inr (.inl ⟨rfl, hx⟩)
  case tx =>
    refine fun h' => (txMove_endsClearingCancel ht hb h').imp_right fun h he => ⟨(h he).1, ?_⟩
    obtain ⟨a, hx, ha, hae⟩ := (h he).2
    exact .inr (.inr (.inl ⟨a, ⟨hm, hx, ha⟩, hae⟩))
  case rx =>
    refine fun h' => (rxMove_endsClearingCancel ht hb h').imp_right fun h he => ⟨(h he).1, ?_⟩
    obtain ⟨b, c, d, hx, ha, hcar, hz⟩ := (h he).2
    obtain ⟨_, _, hce, _⟩ := hi.receive
    exact .inr (.inr (.inr ⟨b, c, d, ⟨hm, hx, (hce (.inl hx)).1, ha⟩, hcar, hz⟩))
  case reset =>
    cases ht
    exact fun _ => ⟨rfl, nofun⟩

end Sys2Proof.Machine
end

section
/-! Single steps and reads: stray answers (R42, X2), PARAM (R26, R219), and the end of a backoff (R171, R177). -/

namespace Sys2Proof.Machine

/-! ## Stray answers -/

/-- An answer that no outstanding write waits for is taken off the list and dropped. -/
theorem txMove_of_stray {s : State} (hx : s.seq ≠ .txw) :
    txMove s = .next { s with env := { s.env with tx := s.env.tx.tail } } := by
  unfold txMove
  split
  · next h =>
    have ht : s.env.tx.tail = s.env.tx := by rw [h]; rfl
    rw [ht]
  · next a rest h => simp [txAnswer, hx, h]

/-- An answer that no outstanding read waits for is taken off the list and dropped. -/
theorem rxMove_of_stray {s : State} (hx : s.seq ≠ .rxw) :
    rxMove s = .next { s with env := { s.env with rx := s.env.rx.tail } } := by
  unfold rxMove
  split
  · next h =>
    have ht : s.env.rx.tail = s.env.rx := by rw [h]; rfl
    rw [ht]
  · next a rest h => simp [rxAnswer, hx, h]

/-- Settles O23: each transport's answer outside its own wait is dropped. -/
theorem strayAnswersAreIgnored : Obligations.StrayAnswersAreIgnored := by
  constructor
  · intro s hm hx
    rw [step_eq, hm]
    exact txMove_of_stray (s := s.scheduled) hx
  · intro s hm hx
    rw [step_eq, hm]
    exact rxMove_of_stray (s := s.scheduled) hx

/-! ## PARAM -/

/-- With a legal RB, PARAM is the word of the four bytes RB, BLOCK_ID, 252 and 2 (R26). -/
theorem paramWord_eq_wordOf {s : State} (h : s.params.Legal) :
    s.paramWord = wordOf (BitVec.ofNat 8 s.params.rb) s.params.blockId 252#8 2#8 := by
  have hrb : zext32 (BitVec.ofNat 8 s.params.rb) = BitVec.ofNat 32 s.params.rb := zext32_ofNat8 (by omega)
  simp only [State.paramWord, wordOf, hrb]
  rfl

/-- Settles O29: the bytes of a word made of four bytes are those bytes. -/
theorem paramReadReturnsTheInstance : Obligations.ParamReadReturnsTheInstance := by
  intro s h
  obtain ⟨h0, h1, h2, h3⟩ := wordOf_extract (BitVec.ofNat 8 s.params.rb) s.params.blockId 252#8 2#8
  rw [← paramWord_eq_wordOf h] at h0 h1 h2 h3
  refine ⟨s.paramWord, rfl, ?_, h1, h2, h3⟩
  rw [h0, BitVec.toNat_ofNat]
  omega

/-! ## The end of a backoff -/

/-- A GETFRAMES that completes with an error other than TimeoutExceeded gives up its bytes and its frames (R185). -/
theorem finish_eq_rxFailed {s : State} {e : ErrKind} (info : Word) (hc : s.cmd = 5#32) (he : e ≠ .ok)
    (ht : e ≠ .timeoutExceeded) : finish e info s = rxFailed e.code info s := by
  simp [finish, rxFailed, completed, State.isGetframes, hc, he, ht]

theorem sat16_toNat (n : Nat) : (sat16 n).toNat = min n 65535 := by
  simp only [sat16, BitVec.toNat_ofNat]
  omega

/-- Settles O52: the end of a backoff is ATTEMPT, which is cancelled or reads. -/
theorem backoffEndsInTheNextAttempt : Obligations.BackoffEndsInTheNextAttempt := by
  intro s hm hx hc
  have hstep : step s = .next (attempt (afterSeq s)) := by
    have hmove : internalStep s.scheduled = .next (attempt s.scheduled) := by simp [internalStep, hx]
    rw [step_eq, hm]
    exact hmove
  rcases attempt_cases (afterSeq s) with ⟨hcan, ha⟩ | ⟨hcan, ha⟩ <;> rw [ha] at hstep
  · have hcan' : s.cancel = true := hcan
    refine ⟨fun _ => ⟨_, fields_extract 0#8 5#8 s.rxcnt, ?_⟩, fun h => by simp [h] at hcan'⟩
    rw [hstep, finish_eq_rxFailed (s := afterSeq s) _ hc (by decide) (by decide)]
    rfl
  · have hcan' : s.cancel = false := hcan
    exact ⟨fun h => by simp [h] at hcan', fun _ => ⟨_, sat16_toNat _, hstep⟩⟩

end Sys2Proof.Machine
end

section
/-! The memory map of the host bus: refused accesses, reads, and busy gating (spec/20_memory.md R60 to R69), and words
written out from the encodings (spec/30_encoding.md R96, R97). -/

namespace Sys2Proof.Machine

/-! ## Addresses as numbers (R60, R61) -/

theorem aligned_iff (a : Addr) : aligned a = true ↔ a.toNat % 4 = 0 := by
  simp [aligned, ← BitVec.toNat_inj, BitVec.extractLsb'_toNat]

theorem region_toNat (a : Addr) : (region a).toNat = a.toNat / 256 := by
  have := a.isLt
  simp only [region, BitVec.extractLsb'_toNat, Nat.shiftRight_eq_div_pow]
  omega

theorem region_ne {a : Addr} {k : BitVec 3} (h : a.toNat / 256 ≠ k.toNat) : region a ≠ k := fun hk =>
  h (hk ▸ (region_toNat a).symm)

/-- Bit 10 of an address is set in the RXQ window. -/
theorem getElem_ten_iff (a : Addr) : a[10] = true ↔ 0x400 ≤ a.toNat := by
  have := a.isLt
  simp only [BitVec.getElem_eq_testBit_toNat, Nat.testBit_eq_decide_div_mod_eq, decide_eq_true_eq]
  omega

/-- The registers' addresses end below 0x030. -/
theorem addr_ne_ofNat_of_lt {a : Addr} (h : 0x030 ≤ a.toNat) {n : Nat} (hn : n < 0x030) : a ≠ BitVec.ofNat 11 n := by
  rintro rfl
  simp only [BitVec.toNat_ofNat] at h
  omega

/-- Between the registers and PBUF, and from the end of FBUF on, an address is in neither window (R61). -/
theorem not_pbuf_not_fbuf {a : Addr} (h : a.toNat ≤ 0x0FF ∨ 0x304 ≤ a.toNat) :
    region a ≠ 1#3 ∧ region a ≠ 2#3 ∧ a ≠ 0x300#11 := by
  refine ⟨region_ne ?_, region_ne ?_, ?_⟩
  · simp only [BitVec.toNat_ofNat]
    omega
  · simp only [BitVec.toNat_ofNat]
    omega
  · rintro rfl
    simp at h

/-! ## Refused accesses (R63, R64) -/

/-- The decoder's answer `r` gives the access no meaning but a bus error: an encoding error, or a read-only write. -/
def RefusedAccess (r : Except Reject Instr) : Prop := (∃ e, r = .error e) ∨ ∃ a d, r = .ok (.wrRo a d)

theorem busAccess_of_refused {t : BusWord} (h : RefusedAccess (decodeBus t)) (s : State) :
    busAccess t s = .next (s.respond .err) := by
  rcases h with ⟨e, he⟩ | ⟨a, d, hi⟩
  · simp [busAccess, he, busError]
  · exact busAccess_of_decodeBus hi s

theorem decodeBus_of_misaligned {t : BusWord} (h : (busA t).toNat % 4 ≠ 0) : decodeBus t = .error .misaligned := by
  have ha : aligned (busA t) = false := Bool.eq_false_iff.mpr (mt (aligned_iff _).mp h)
  simp [decodeBus, decodeWrite, decodeRead, ha]

/-- Between the registers and PBUF, and between FBUF and RXQ, nothing is mapped (R61). -/
def ReservedAddr (a : Addr) : Prop := (0x030 ≤ a.toNat ∧ a.toNat ≤ 0x0FF) ∨ (0x304 ≤ a.toNat ∧ a.toNat ≤ 0x3FF)

/-- An aligned access at a reserved address passes every line of the map (R64, R97). -/
theorem decodeBus_of_reserved {t : BusWord} (ha : aligned (busA t) = true) (h : ReservedAddr (busA t)) :
    decodeBus t = .error .reservedAddress := by
  unfold ReservedAddr at h
  generalize hat : busA t = a at ha h
  have hlow : 0x030 ≤ a.toNat := by omega
  obtain ⟨h1, h2, h3⟩ := not_pbuf_not_fbuf (a := a) (by omega)
  have h10 : a[10] = false := Bool.eq_false_iff.mpr (mt (getElem_ten_iff a).mp (by omega))
  simp [decodeBus, decodeWrite, decodeRead, readOnlyAddr, hat, ha, addr_ne_ofNat_of_lt hlow, h1, h2, h3, h10]

/-- An aligned write above 0x400 is a write to RXQ, which is read-only (R235). -/
theorem decodeWrite_rxq {a : Addr} (d : Word) (ha : aligned a = true) (h : 0x400 ≤ a.toNat) :
    decodeWrite a d = .ok (.wrRo a d) := by
  obtain ⟨h1, h2, h3⟩ := not_pbuf_not_fbuf (a := a) (by omega)
  have hro : readOnlyAddr a = true := by
    have h0 : a.extractLsb' 0 2 = 0#2 := by simpa [aligned] using ha
    simp [readOnlyAddr, (getElem_ten_iff a).mpr h, h0]
  have hlow : 0x030 ≤ a.toNat := by omega
  simp [decodeWrite, ha, addr_ne_ofNat_of_lt hlow, h1, h2, h3, hro]

/-- A write to one of the six read-only registers (R235). -/
theorem decodeWrite_readOnlyRegister {a : Addr} (d : Word)
    (h : a.toNat ∈ [0x00C, 0x010, 0x020, 0x024, 0x028, 0x02C]) : decodeWrite a d = .ok (.wrRo a d) := by
  have ha : a = BitVec.ofNat 11 a.toNat := by simp
  simp only [List.mem_cons, List.not_mem_nil, or_false] at h
  rcases h with h | h | h | h | h | h <;> rw [ha, h] <;> rfl

/-- Settles O8: the decoder gives each of these accesses no meaning but a bus error, and the host's step is that. -/
theorem refusedAccessIsABusErrorAndChangesNothing : Obligations.RefusedAccessIsABusErrorAndChangesNothing := by
  intro s t ht h
  suffices hr : RefusedAccess (decodeBus t) from (step_of_hostIssues ht).trans (busAccess_of_refused hr _)
  by_cases hm : (busA t).toNat % 4 = 0
  · have ha := (aligned_iff _).mpr hm
    rcases h with h | h | h | ⟨hw, h⟩
    · exact absurd hm h
    · exact .inl ⟨_, decodeBus_of_reserved ha (.inl h)⟩
    · exact .inl ⟨_, decodeBus_of_reserved ha (.inr h)⟩
    · rw [decodeBus, if_pos hw]
      rcases h with h | h
      · exact .inr ⟨_, _, decodeWrite_readOnlyRegister _ h⟩
      · exact .inr ⟨_, _, decodeWrite_rxq _ ha h⟩
  · exact .inl ⟨_, decodeBus_of_misaligned hm⟩

/-! ## Reads (R67) -/

/-- What is accepted as a write is encoded as one. -/
theorem BusWrite.busW_encode {s t : State} {i : Instr} (hw : BusWrite s i t) {a : BusWord} (h : encode i = .bus a) :
    busW a = true := by
  cases hw <;> cases h <;> exact busW_busOf _ _ _

/-- Settles O24: a bus instruction only answers or is an accepted write, and a read is no write. -/
theorem busReadsOnlyAnswer : Obligations.BusReadsOnlyAnswer := by
  rintro i s t ⟨a, hi, hr⟩ ht
  rcases exec_bus_cases hi ht with ⟨r, rfl⟩ | hw
  · rfl
  · simp [hw.busW_encode hi] at hr

/-! ## Busy gating (R69) -/

/-- While busy, an instruction with the mnemonic of one of the eight operations is accepted, and any other is a bus
error. -/
theorem exec_bus_of_busy {s : State} (hb : s.busy = true) {i : Instr} {a : BusWord} (hi : encode i = .bus a) :
    if i.mnemonic ∈ ["RD_CTRL", "RD_STATUS", "RD_CMD", "RD_ERRINFO", "RD_PARAM", "RD_CNT", "WR_CTRL", "WR_STATUS"]
    then ∃ t, exec i s = .next t ∧ t.resp ≠ .err
    else exec i s = .next { s with resp := .err } := by
  have gated (r : Result) : whenIdle s r = .next { s with resp := .err } := whenIdle_busy hb
  have gatedWord (i : BitVec 7) (r : Result) :
      (if i.toNat ≤ 64 then whenIdle s r else busError s) = .next { s with resp := .err } := by
    split
    · exact gated r
    · rfl
  cases i with
  | nop => cases hi
  | encode => cases hi
  | send => cases hi
  | encsend => cases hi
  | decode => cases hi
  | getframes => cases hi
  | rdCtrl => exact ⟨_, rfl, nofun⟩
  | rdStatus => exact ⟨_, rfl, nofun⟩
  | rdCmd => exact ⟨_, rfl, nofun⟩
  | rdErrinfo => exact ⟨_, rfl, nofun⟩
  | rdParam => exact ⟨_, rfl, nofun⟩
  | rdCnt => exact ⟨_, rfl, nofun⟩
  | wrCtrl d => exact ⟨_, rfl, nofun⟩
  | wrStatus d => exact ⟨_, rfl, nofun⟩
  | wrRo a d => rfl
  | wrFbuf i d => exact gatedWord _ _
  | rdFbuf i => exact gatedWord _ _
  | _ => exact gated _

/-- Settles O25: by the kind of bus instruction, and an access that decodes to none is a bus error. -/
theorem busyGatingAcceptsEightOperations : Obligations.BusyGatingAcceptsEightOperations := by
  refine ⟨fun s i a hb hi => exec_bus_of_busy hb hi, fun s d hb => ⟨_, rfl, ?_⟩, fun s a r _ hd => ?_⟩
  · simp [State.respond, hb]
  · exact busAccess_of_refused (.inl ⟨r, hd⟩) s

/-! ## Words written out (R96, R97) -/

/-- Settles O5: the decoder is run on each word. -/
theorem writtenOutWordsDecode : Obligations.WrittenOutWordsDecode := by
  unfold Obligations.WrittenOutWordsDecode
  decide

end Sys2Proof.Machine
end

section
/-! Words of the buffer windows read back as written (spec/20_memory.md R65, R70). -/

namespace Sys2Proof.Machine

/-- Four bytes read one after the other are the window word that they were stored from (R65). -/
theorem windowWord_store_same {s : State} (hm : Memory.wf s.mem = true) (a : Nat) (d : Word) :
    (s.store a (wordBytes d)).windowWord a = d := by
  have hb (j : Nat) (hj : j < (wordBytes d).length) :
      Memory.read (s.store a (wordBytes d)).mem (a + j) = (wordBytes d)[j] :=
    memory_read_writeBytes_inside hm j hj
  have h0 := hb 0 (by simp)
  have h1 := hb 1 (by simp)
  have h2 := hb 2 (by simp)
  have h3 := hb 3 (by simp)
  rw [Nat.add_zero] at h0
  rw [State.windowWord, h0, h1, h2, h3]
  exact wordOf_wordByte d

/-- A word that a store of four bytes does not overlap reads as before. -/
theorem windowWord_store_disjoint (s : State) {a b : Nat} (d : Word) (h : b + 4 ≤ a ∨ a + 4 ≤ b) :
    (s.store a (wordBytes d)).windowWord b = s.windowWord b := by
  have hb (j : Nat) (hj : j < 4) : Memory.read (s.store a (wordBytes d)).mem (b + j) = Memory.read s.mem (b + j) :=
    memory_read_writeBytes_outside _ _ (by simp only [wordBytes_length]; omega)
  have h0 := hb 0 (by omega)
  have h1 := hb 1 (by omega)
  have h2 := hb 2 (by omega)
  have h3 := hb 3 (by omega)
  rw [Nat.add_zero] at h0
  simp only [State.windowWord, h0, h1, h2, h3]

theorem windowWrite_idle {s : State} (hb : s.busy = false) (a : Nat) (d : Word) :
    windowWrite a d s = .next ((s.store a (wordBytes d)).respond .ok) := whenIdle_idle hb

theorem windowRead_idle {s : State} (hb : s.busy = false) (a : Nat) :
    windowRead a s = .next (s.respond (.data (s.windowWord a))) := whenIdle_idle hb

/-- While idle, after a write of word `i` of a window at `base`, word `j` reads as the data when `i = j` and as before
when not. -/
theorem windowRead_after_windowWrite {s : State} (hb : s.busy = false) (hm : Memory.wf s.mem = true) (d : Word)
    {n : Nat} (base : Nat) (i j : BitVec n) : ∃ t, windowWrite (base + 4 * i.toNat) d s = .next t
      ∧ windowRead (base + 4 * j.toNat) t
        = .next { t with resp := if i = j then .data d else .data (s.windowWord (base + 4 * j.toNat)) } := by
  have hword : ((s.store (base + 4 * i.toNat) (wordBytes d)).respond .ok).windowWord (base + 4 * j.toNat)
      = if i = j then d else s.windowWord (base + 4 * j.toNat) := by
    split
    · next h => exact h ▸ windowWord_store_same hm _ d
    · next h =>
      have hne : i.toNat ≠ j.toNat := mt BitVec.eq_of_toNat_eq h
      exact windowWord_store_disjoint s d (by omega)
  have hidle : ((s.store (base + 4 * i.toNat) (wordBytes d)).respond .ok).busy = false := hb
  refine ⟨_, windowWrite_idle hb _ _, ?_⟩
  rw [windowRead_idle hidle, hword, apply_ite BusResp.data]
  rfl

/-- Settles O39: a word of either window reads back, and the other words of the window are other bytes. -/
theorem windowWordReadsBack : Obligations.WindowWordReadsBack := by
  intro s d hb hm
  refine ⟨fun i j => windowRead_after_windowWrite hb hm d pbufBase i j, fun i j hi hj => ?_⟩
  have hw (u : State) : exec (.wrFbuf i d) u = windowWrite (fbufBase + 4 * i.toNat) d u := if_pos hi
  have hr (u : State) : exec (.rdFbuf j) u = windowRead (fbufBase + 4 * j.toNat) u := if_pos hj
  simp only [hw, hr]
  exact windowRead_after_windowWrite hb hm d fbufBase i j

end Sys2Proof.Machine
end

section
/-! The blocks handed to the TX transport: they stay handed, in order, and a SEND whose chunks are all answered with Ok
hands over all of them and completes (spec/41_send.md R150 to R153, spec/20_memory.md R75). -/

namespace Sys2Proof.Machine

/-! ## At most one block a step (R75, R153) -/

/-- From `s` to `t` no block has been handed over, or one, which is on the TX port. -/
def HandsAtMostOne (s t : State) : Prop :=
  t.env.sent = s.env.sent ∨ ∃ b, t.env.sent = s.env.sent ++ [b] ∧ t.txPort = some b ∧ t.seq = .txw

/-- What has happened before the hand-over of no block may be left out. -/
theorem HandsAtMostOne.after {s u t : State} (h : HandsAtMostOne u t) (hs : u.env.sent = s.env.sent) :
    HandsAtMostOne s t := by
  unfold HandsAtMostOne at *
  rwa [← hs]

theorem handsAtMostOne_nextChunk {s t : State} (ht : nextChunk s = .next t) : HandsAtMostOne s t := by
  rcases nextChunk_cases s with ⟨_, hn⟩ | ⟨_, _, hn⟩ | ⟨_, _, _, hn⟩ | ⟨_, _, _, hn⟩ <;> rw [hn] at ht <;> cases ht
  · exact .inl rfl
  · exact .inl rfl
  · exact .inr ⟨txBlock s s.k, rfl, rfl, rfl⟩

theorem handsAtMostOne_sendStart {s t : State} (ht : sendStart s = .next t) : HandsAtMostOne s t := by
  rcases sendStart_cases s with ⟨_, hn⟩ | ⟨_, _, hn⟩ | ⟨_, _, hn⟩ <;> rw [hn] at ht
  · cases ht
    exact .inl rfl
  · cases ht
    exact .inl rfl
  · exact (handsAtMostOne_nextChunk ht).after rfl

theorem attempt_env (s : State) : (attempt s).env = s.env := by
  rcases attempt_cases s with ⟨_, h⟩ | ⟨_, h⟩ <;> simp [h]

theorem FramesTaken.env {s u : State} (h : FramesTaken s u) : u.env = s.env := by
  induction h with
  | none => rfl
  | more _ _ ih => exact ih

/-- The reassembly loop leaves the agents' lists alone. -/
theorem fill_env (s : State) : (fill s).env = s.env := by
  obtain ⟨u, hu, he⟩ := fill_cases s
  rw [← hu.env]
  generalize fill s = t at he
  cases he with
  | readsOn _ => exact attempt_env { u with att := 0 }
  | _ => rfl

theorem rxAnswered_env {a : RxAnswer} {s t : State} (ht : rxAnswered a s = .next t) : t.env = s.env := by
  cases a with
  | err c =>
    cases ht
    rfl
  | block b =>
    simp only [rxAnswered] at ht
    split at ht <;> cases ht
    · unfold noDataYet
      split <;> rfl
    · exact fill_env _

theorem Starts.handsAtMostOne {s t : State} (h : Starts s t) : HandsAtMostOne s t := by
  cases h with
  | sends _ h => exact (handsAtMostOne_sendStart h).after rfl
  | encsends _ _ h => exact (handsAtMostOne_sendStart h).after rfl
  | receives _ _ => exact .inl (congrArg Env.sent (fill_env (getframesStart s)))
  | _ => exact .inl rfl

theorem internalStep_handsAtMostOne {s t : State} (ht : internalStep s = .next t) : HandsAtMostOne s t := by
  rcases internalStep_cases ht with ⟨_, hs⟩ | ⟨_, rfl⟩ | ⟨_, rfl⟩
  · exact hs.handsAtMostOne
  · exact .inl (congrArg Env.sent (attempt_env s))
  · exact .inl rfl

theorem hostMove_sent {s t : State} (ht : hostMove s = .next t) : t.env.sent = s.env.sent := by
  rcases hostMove_cases ht with ha | ⟨a, i, _, _, hw⟩
  · rw [ha]
  · cases hw <;> rfl

theorem txMove_handsAtMostOne {s t : State} (ht : txMove s = .next t) : HandsAtMostOne s t := by
  rcases txMove_cases ht with ⟨e, rfl, _⟩ | ⟨a, rest, _, _, ht⟩
  · exact .inl rfl
  · cases ha : a.answer <;> rw [ha] at ht
    case ok => exact (handsAtMostOne_nextChunk ht).after rfl
    case err c =>
      cases ht
      exact .inl rfl

theorem rxMove_sent {s t : State} (ht : rxMove s = .next t) : t.env.sent = s.env.sent := by
  rcases rxMove_cases ht with ⟨e, rfl, _⟩ | ⟨a, rest, _, _, ht⟩
  · rfl
  · rw [rxAnswered_env ht]

/-- Settles O21: only NEXTCHUNK hands a block over, and it runs at most once a step. -/
theorem handedBlocksAreNeverTakenBack : Obligations.HandedBlocksAreNeverTakenBack := by
  intro s t ht
  suffices h : HandsAtMostOne s.scheduled t from h
  rw [step_eq] at ht
  cases hm : mover s <;> rw [hm] at ht
  case host => exact .inl (hostMove_sent ht)
  case sequencer => exact internalStep_handsAtMostOne ht
  case tx => exact txMove_handsAtMostOne ht
  case rx => exact .inl (rxMove_sent ht)
  case reset =>
    cases ht
    exact .inl rfl

/-! ## A whole SEND (R150, R151) -/

theorem core_run_succ {s t : State} (h : step s = .next t) (n : Nat) :
    Host.Core.run core (n + 1) s = Host.Core.run core n t := by
  have h' : core.step s = .next t := h
  simp only [Host.Core.run, h']

/-- In the default order the sequencer moves in EXEC (log entry 4). -/
theorem step_of_exec {s : State} (hs : s.env.sched = []) (hx : s.seq = .exec) : step s = startCommand s := by
  have hm : mover s = .sequencer := by simp [mover_default hs, nextAgent, hx]
  have ha : afterSeq s = s := by
    have ht : s.env.sched.tail = s.env.sched := by rw [hs]; rfl
    rw [afterSeq, ht]
  rw [step_of_sequencer_exec hm hx, ha]

/-- The state in which NEXTCHUNK runs after the answer Ok to the outstanding write, the first that is coming. -/
def chunkAnswered (s : State) : State :=
  { s with
    txPort := none, txcnt := sat16 (s.txcnt.toNat + 1), k := s.k + 1
    env := { s.env with tx := s.env.tx.tail, sched := s.env.sched.tail } }

/-- In the default order the TX transport moves in TXW when it has an answer, and an Ok leads to NEXTCHUNK. -/
theorem step_of_txw_ok {s : State} {a : TxAck} {rest : List TxAck} (hs : s.env.sched = []) (hx : s.seq = .txw)
    (ht : s.env.tx = a :: rest) (ha : a.err = false) : step s = nextChunk (chunkAnswered s) := by
  have hm : mover s = .tx := by simp [mover_default hs, nextAgent, hx, ht]
  have hok : a.answer = .ok := by simp [TxAck.answer, ha]
  rw [step_eq, hm]
  simp [move, txMove, ht, txAnswer, hx, hok, txAnswered, chunkAnswered, State.scheduled]

/-- NEXTCHUNK is about to run in `u`, no cancellation is pending, the answers `acks` to the chunks that are left are
coming and are all Ok, `rest` comes after them, and TXCNT has counted the chunks before. -/
structure ChunksLeft (u : State) (acks rest : List TxAck) : Prop where
  cancel : u.cancel = false
  sched : u.env.sched = []
  tx : u.env.tx = acks ++ rest
  ok : ∀ a ∈ acks, a.err = false
  count : u.k + acks.length = u.nch
  nch : u.nch ≤ 37
  txcnt : u.txcnt.toNat = u.k

/-- `t` is what a send leaves that in `u` was about to hand over the last `n` chunks and then completed with OK. -/
structure ChunksSent (u : State) (n : Nat) (rest : List TxAck) (t : State) : Prop where
  sent : t.env.sent = u.env.sent ++ (List.range' u.k n).map (txBlock u)
  txcnt : t.txcnt.toNat = u.k + n
  record : t.errcode = 0#4 ∧ t.errinfo = 0#32 ∧ t.done = true ∧ t.busy = false ∧ t.seq = .idle
  buffers : t.mem = u.mem ∧ t.flen = u.flen
  tx : t.env.tx = rest

/-- The answer to the chunk handed over leaves one chunk less. -/
theorem ChunksLeft.chunkAnswered {u : State} {a : TxAck} {acks rest : List TxAck} (h : ChunksLeft u (a :: acks) rest) :
    ChunksLeft (chunkAnswered (issueChunk u)) acks rest where
  cancel := h.cancel
  sched := by simp [Machine.chunkAnswered, h.sched]
  tx := by simp [Machine.chunkAnswered, h.tx]
  ok b hb := h.ok b (by simp [hb])
  count := by
    have := h.count
    simp only [Machine.chunkAnswered, issueChunk_k, issueChunk_nch, List.length_cons] at *
    omega
  nch := h.nch
  txcnt := by
    have := h.count
    have := h.nch
    have := h.txcnt
    simp only [Machine.chunkAnswered, issueChunk_txcnt, issueChunk_k, sat16_toNat, List.length_cons] at *
    omega

/-- NEXTCHUNK with answers to all the chunks that are left: a step for each answer, and the command has completed. -/
theorem run_nextChunk {acks rest : List TxAck} {u : State} (h : ChunksLeft u acks rest) :
    ∃ v t, nextChunk u = .next v ∧ Host.Core.run core acks.length v = .next t ∧ ChunksSent u acks.length rest t := by
  induction acks generalizing u with
  | nil =>
    have hk : u.k = u.nch := h.count
    have hn : nextChunk u = .next (finish .ok 0#32 u) := by simp [nextChunk, hk, finished]
    exact ⟨_, _, hn, rfl, by simp, h.txcnt, ⟨rfl, rfl, rfl, rfl, rfl⟩, ⟨rfl, rfl⟩, h.tx⟩
  | cons a acks ih =>
    have hc := h.count
    have h37 := h.nch
    rw [List.length_cons] at hc
    have hn : nextChunk u = .next (issueChunk u) := by
      rcases nextChunk_cases u with ⟨hk, _⟩ | ⟨_, hcan, _⟩ | ⟨_, _, _, hn⟩ | ⟨_, _, hk, _⟩
      · omega
      · simp [h.cancel] at hcan
      · exact hn
      · omega
    obtain ⟨v, t, hv, hrun, hsent⟩ := ih h.chunkAnswered
    have hstep : step (issueChunk u) = .next v :=
      (step_of_txw_ok (s := issueChunk u) h.sched rfl h.tx (h.ok a (by simp))).trans hv
    refine ⟨_, t, hn, (core_run_succ hstep _).trans hrun, ?_, ?_, hsent.record, hsent.buffers, hsent.tx⟩
    · rw [hsent.sent, List.length_cons, List.range'_succ, List.map_cons, ← List.singleton_append, ← List.append_assoc]
      rfl
    · rw [hsent.txcnt]
      simp only [chunkAnswered, issueChunk_k, List.length_cons]
      omega

/-- The state in which the first NEXTCHUNK of a SEND runs (R150, R151). -/
def sendBegun (s : State) : State := { s with txcnt := 0#16, nch := s.flen.toNat / 7, k := 0 }

/-- With an open session and a whole number of chunks SEND goes to NEXTCHUNK. -/
theorem exec_send_of_chunks {s : State} (he : s.en = true) (h7 : s.flen.toNat % 7 = 0) :
    exec .send s = nextChunk (sendBegun s) := by
  rcases sendStart_cases { s with txcnt := 0#16 } with ⟨hen, _⟩ | ⟨_, hm, _⟩ | ⟨_, _, hss⟩
  · simp [he] at hen
  · exact absurd h7 hm
  · exact hss

theorem isBlock_txBlock (s : State) (k : Nat) : isBlock s k (txBlock s k) := txBlock_bytes s k

/-- Settles O50: the EXEC step goes to NEXTCHUNK with K = 0 and all n chunks left. -/
theorem sendOfNChunksCompletes : Obligations.SendOfNChunksCompletes := by
  intro s n acks rest hx hc he hcan hs hf h37 ht hn hok
  have hleft : ChunksLeft (sendBegun s) acks rest :=
    ⟨hcan, hs, ht, hok, by simp only [sendBegun]; omega, by simp only [sendBegun]; omega, rfl⟩
  obtain ⟨v, t, hv, hrun, hsent, htxcnt, ⟨hec, hei, hd, hb, hi⟩, ⟨hmem, hfl⟩, htx⟩ := run_nextChunk hleft
  have hstep : step s = .next v := by
    have hsend : startCommand s = exec .send s := startCommand_of_decodeCmd (by rw [hc]; rfl)
    rw [step_of_exec hs hx, hsend, exec_send_of_chunks he (by omega), hv]
  have hk0 : (sendBegun s).k = 0 := rfl
  rw [hn] at hrun hsent htxcnt
  rw [hk0] at hsent htxcnt
  refine ⟨t, _, ?_, hsent, by simp, fun k hk => ?_, by omega, hec, hei, hd, hb, hi, hmem, hfl, htx⟩
  · rw [Nat.add_comm]
    exact (core_run_succ hstep n).trans hrun
  · rw [List.getElem_map, List.getElem_range', Nat.zero_add, Nat.one_mul]
    exact isBlock_txBlock s k

end Sys2Proof.Machine
end

section
/-! The answers of the RX transport with a block (spec/42_receive.md R173 to R184): an all-zero block is retried, and
the frames that a block completes go to RXQ. -/

namespace Sys2Proof.Machine

/-! ## The RX answer step -/

/-- A step in which the RX transport answers an outstanding read with a block takes the answer and drops `rx_req`; an
all-zero block is NoDataYet, and any other is appended to RAB (R95, R173, R174). -/
theorem step_of_block {s : State} {a : RxAck} (h : rxAnswers s a) (he : a.err = false) :
    step s = .next (if allZero (unpackBlock s.params.rb a.data) then noDataYet (afterRx s)
      else appendBlock (unpackBlock s.params.rb a.data) (afterRx s)) := by
  obtain ⟨hm, hx, _, ha⟩ := h
  obtain ⟨rest, hl⟩ := List.head?_eq_some_iff.mp ha
  have hmove : rxMove s.scheduled
      = rxAnswered (a.answer s.params.rb) { s.scheduled with env := { s.scheduled.env with rx := rest } } := by
    simp [rxMove, rxAnswer, hl, hx]
  have hblock : a.answer s.params.rb = .block (unpackBlock s.params.rb a.data) := by simp [RxAck.answer, he]
  have hrest : rest = s.env.rx.tail := by rw [hl]; rfl
  have hstep : step s = rxMove s.scheduled := by rw [step_eq, hm]; rfl
  rw [hstep, hmove, hblock, hrest, apply_ite Host.Outcome.next]
  rfl

theorem allZero_unpackBlock {rb : Nat} {d : RxData} :
    allZero (unpackBlock rb d) = true ↔ ∀ i < rb, d.extractLsb' (8 * i) 8 = 0#8 := by
  simp [allZero, unpackBlock]

/-- The data signals carry one block (R95). -/
theorem unpackBlock_eq_of_carries {rb : Nat} {d : RxData} {b : List Byte} (h : carries rb d b) :
    unpackBlock rb d = b := by
  obtain ⟨hl, hb⟩ := h
  refine List.ext_getElem (by simp [hl]) fun i hi hi' => ?_
  rw [unpackBlock_getElem, hb i hi']

/-! ## An all-zero block (R174, R175) -/

/-- A GETFRAMES that gives up sets TO_EMPTY to FIRST besides what every error does (R185, R241). -/
theorem finish_timeoutExceeded {s : State} (info : Word) (hc : s.cmd = 5#32) :
    finish .timeoutExceeded info s = { rxFailed 4#4 info s with toEmpty := s.first } := by
  simp [finish, rxFailed, completed, State.isGetframes, hc, ErrKind.code]

/-- With the attempts spent NoDataYet ends the command (R174). -/
theorem noDataYet_of_spent {s : State} (h : s.maxatt.toNat ≤ s.att) :
    noDataYet s = finish .timeoutExceeded (rxInfo (BitVec.ofNat 32 s.att) 5#32 s) s := if_pos h

/-- With attempts left NoDataYet begins the backoff (R175). -/
theorem noDataYet_of_left {s : State} (h : s.att < s.maxatt.toNat) : noDataYet s = { s with seq := .bkoff } :=
  if_neg (Nat.not_le.mpr h)

/-- Settles O54: the block is NoDataYet, whose two cases are these. -/
theorem zeroBlockIsRetriedUpToMaxatt : Obligations.ZeroBlockIsRetriedUpToMaxatt := by
  intro s a h he hz hatt
  have hc : s.cmd = 5#32 := by
    obtain ⟨_, _, hc, _⟩ := h
    exact hc
  have hstep : step s = .next (noDataYet (afterRx s)) := by
    rw [step_of_block h he, if_pos (allZero_unpackBlock.mpr hz)]
  refine ⟨fun hle => ⟨_, fields_extract (BitVec.ofNat 8 s.att) 5#8 s.rxcnt, ?_⟩, fun hlt => ?_⟩
  · rw [hstep, noDataYet_of_spent (s := afterRx s) hle, finish_timeoutExceeded (s := afterRx s) _ hc,
      zext32_ofNat8 (by omega)]
    rfl
  · rw [hstep, noDataYet_of_left (s := afterRx s) hlt]

/-! ## A block with a non-zero byte (R173, R179 to R184) -/

/-- The frames lie in RXQ back to back from RXLEN on; a canonical memory is needed only to read some byte back. -/
theorem storesFrame_framesAppended {s : State} (fs : List (List Byte)) (rest : List Byte)
    (hm : fs ≠ [] → Memory.wf s.mem = true) : storesFrame s (framesAppended s fs rest) fs.flatten := by
  refine ⟨fun i hi => ?_, fun a ha => memory_read_writeBytes_outside _ _ ha⟩
  have hfs : fs ≠ [] := by
    rintro rfl
    simp at hi
  rw [State.rxq, ← Nat.add_assoc]
  exact memory_read_writeBytes_inside (hm hfs) i hi

/-- A step in which a block arrives after which RAB is the good frames `fs` and then `rest` moves the frames to RXQ, and
FILL looks at `rest`. -/
theorem step_of_framesThenRest {s : State} {b : List Byte} {fs : List (List Byte)} {rest : List Byte}
    (h : framesThenRest s b fs rest) : ∃ u, framesMoved s u fs rest ∧ step s = .next (fill u) := by
  obtain ⟨⟨c, d, hrx, hcar, hne⟩, hrab, hv, hq, hz⟩ := h
  have hstep : step s = .next (appendBlock b (afterRx s)) := by
    have hnz : allZero b ≠ true := by simpa [allZero] using hne
    rw [step_of_block hrx rfl, unpackBlock_eq_of_carries hcar, if_neg hnz]
  have hfill : appendBlock b (afterRx s)
      = fill (framesAppended { afterRx s with rab := s.rab ++ b, first := false } fs rest) := by
    refine fill_frames hrab hv hq fun hfs => ?_
    simpa [allZero] using (hz hfs).2
  refine ⟨_, ⟨rfl, ?_, ?_, ?_⟩, hfill ▸ hstep⟩
  · simp only [framesAppended, BitVec.toNat_ofNat, afterRx]
    omega
  · exact storesFrame_framesAppended (s := { afterRx s with rab := s.rab ++ b, first := false }) fs rest
      fun hfs => (hz hfs).1
  · rintro rfl
    rfl

/-- FILL reads on when RAB is short of 2 bytes or of its frame (R179). -/
theorem fill_of_needsMore {s : State} (h : needsMore s) : fill s = readOne s := by
  rw [fill_eq]
  rcases h with h | ⟨hl, h⟩
  · rw [if_pos h]
  · rw [if_neg (Nat.not_lt.mpr hl), if_pos h, ite_self]

/-- readOne is ATTEMPT number 1: it is cancelled or issues one read (R170, R171). -/
theorem readOne_cases (s : State) :
    (s.cancel = true ∧ readOne s = finish .cancelled (rxInfo 0#32 5#32 s) { s with att := 0 })
      ∨ (s.cancel = false
          ∧ readOne s = { s with att := 1, rdcnt := sat16 (s.rdcnt.toNat + 1), rxReq := true, seq := .rxw }) :=
  attempt_cases { s with att := 0 }

/-- Settles O55: FILL moves the frames, and for the rest it goes to readOne, which is cancelled or reads. -/
theorem incompleteFrameReadsOn : Obligations.IncompleteFrameReadsOn := by
  intro s b fs rest h hshort
  obtain ⟨u, hu, hstep⟩ := step_of_framesThenRest h
  obtain ⟨⟨c, d, ⟨_, _, hc, _⟩, _⟩, _⟩ := h
  refine ⟨u, hu, ?_⟩
  obtain ⟨hu, _⟩ := hu
  have hrab : u.rab = rest := by rw [hu]
  have hcmd : u.cmd = 5#32 := by rw [hu]; exact hc
  have hcan : u.cancel = s.cancel := by rw [hu]; rfl
  have hrd : u.rdcnt = s.rdcnt := by rw [hu]; rfl
  have hmore : needsMore u := by
    unfold needsMore rabLen
    rw [hrab]
    exact hshort
  rw [fill_of_needsMore hmore] at hstep
  rcases readOne_cases u with ⟨hc1, hr⟩ | ⟨hc0, hr⟩
  · rw [hcan] at hc1
    refine ⟨fun h0 => by simp [h0] at hc1, fun _ => ⟨_, fields_extract 0#8 5#8 u.rxcnt, ?_⟩⟩
    rw [hstep, hr, finish_eq_rxFailed (s := { u with att := 0 }) _ hcmd (by decide) (by decide)]
    rfl
  · rw [hcan] at hc0
    refine ⟨fun _ => ⟨_, sat16_toNat _, ?_⟩, fun h1 => by simp [h1] at hc0⟩
    rw [hstep, hr, hrd]

end Sys2Proof.Machine
end

section
/-! The decoder and the encoder give each other back (spec/30_encoding.md R96, R97). -/

namespace Sys2Proof.Machine

/-! ## The words of a window as addresses (R61, R97) -/

theorem windowAddr_toNat (base i : Addr) : (windowAddr base i).toNat = (base.toNat + 4 * i.toNat) % 2048 := by
  simp only [windowAddr, BitVec.toNat_add, BitVec.toNat_shiftLeft, Nat.shiftLeft_eq]
  omega

/-- The word index in a window address, in the `n` bits from bit 2 on. -/
theorem wordIndex_toNat (n : Nat) (a : Addr) : (a.extractLsb' 2 n).toNat = a.toNat / 4 % 2 ^ n := by
  rw [BitVec.extractLsb'_toNat, Nat.shiftRight_eq_div_pow]

theorem eq_region {a : Addr} {k : BitVec 3} (h : a.toNat / 256 = k.toNat) : region a = k :=
  BitVec.eq_of_toNat_eq (by rw [region_toNat, h])

/-- An address in a window's region lies above the registers. -/
theorem low_le_of_region {a : Addr} {k : BitVec 3} (h : region a = k) (hk : 1 ≤ k.toNat) : 0x030 ≤ a.toNat := by
  have := region_toNat a
  rw [h] at this
  omega

/-! ## The decoder in each window -/

theorem decodeWrite_pbuf {a : Addr} (d : Word) (ha : aligned a = true) (h : region a = 1#3) :
    decodeWrite a d = .ok (.wrPbuf (a.extractLsb' 2 6) d) := by
  simp [decodeWrite, ha, addr_ne_ofNat_of_lt (low_le_of_region h (by decide)), h]

theorem decodeRead_pbuf {a : Addr} (ha : aligned a = true) (h : region a = 1#3) :
    decodeRead a = .ok (.rdPbuf (a.extractLsb' 2 6)) := by
  simp [decodeRead, ha, addr_ne_ofNat_of_lt (low_le_of_region h (by decide)), h]

theorem decodeWrite_fbuf {a : Addr} (d : Word) (ha : aligned a = true) (h : region a = 2#3) :
    decodeWrite a d = .ok (.wrFbuf ((a.extractLsb' 2 6).setWidth 7) d) := by
  simp [decodeWrite, ha, addr_ne_ofNat_of_lt (low_le_of_region h (by decide)), h]

theorem decodeRead_fbuf {a : Addr} (ha : aligned a = true) (h : region a = 2#3) :
    decodeRead a = .ok (.rdFbuf ((a.extractLsb' 2 6).setWidth 7)) := by
  simp [decodeRead, ha, addr_ne_ofNat_of_lt (low_le_of_region h (by decide)), h]

theorem decodeRead_rxq {a : Addr} (ha : aligned a = true) (h : 0x400 ≤ a.toNat) :
    decodeRead a = .ok (.rdRxq (a.extractLsb' 2 8)) := by
  obtain ⟨h1, h2, h3⟩ := not_pbuf_not_fbuf (a := a) (by omega)
  have h10 : a[10] = true := (getElem_ten_iff a).mpr h
  have hlow : 0x030 ≤ a.toNat := by omega
  simp [decodeRead, ha, addr_ne_ofNat_of_lt hlow, h1, h2, h3, h10]

/-- The read-only locations are the six registers and the words of RXQ (R235). -/
theorem readOnlyAddr_cases {a : Addr} (h : readOnlyAddr a = true) :
    a.toNat ∈ [0x00C, 0x010, 0x020, 0x024, 0x028, 0x02C] ∨ (aligned a = true ∧ 0x400 ≤ a.toNat) := by
  simp only [readOnlyAddr, Bool.or_eq_true, Bool.and_eq_true, decide_eq_true_eq] at h
  rcases h with (((((rfl | rfl) | rfl) | rfl) | rfl) | rfl) | ⟨h10, h0⟩
  case inr => exact .inr ⟨by simpa [aligned] using h0, (getElem_ten_iff a).mp (by simpa using h10)⟩
  all_goals exact .inl (by decide)

/-! ## Encoded instructions decode -/

theorem wordIndex_eq {n : Nat} {a : Addr} {i : BitVec n} (h : a.toNat / 4 % 2 ^ n = i.toNat) : a.extractLsb' 2 n = i :=
  BitVec.eq_of_toNat_eq (by rw [wordIndex_toNat, h])

/-- Word `i` of the PBUF window is an aligned word of region 1 with the index `i`. -/
theorem pbufWord_addr (i : BitVec 6) : aligned (windowAddr 0x100#11 (i.setWidth 11)) = true
    ∧ region (windowAddr 0x100#11 (i.setWidth 11)) = 1#3
    ∧ (windowAddr 0x100#11 (i.setWidth 11)).extractLsb' 2 6 = i := by
  have hi := i.isLt
  have ha : (windowAddr 0x100#11 (i.setWidth 11)).toNat = 0x100 + 4 * i.toNat := by
    simp only [windowAddr_toNat, BitVec.toNat_setWidth, BitVec.toNat_ofNat]
    omega
  refine ⟨(aligned_iff _).mpr ?_, eq_region ?_, wordIndex_eq ?_⟩ <;> rw [ha]
  · omega
  · simp only [BitVec.toNat_ofNat]
    omega
  · omega

/-- Word `i < 64` of the FBUF window is an aligned word of region 2 with the index `i`. -/
theorem fbufWord_addr {i : BitVec 7} (hi : i.toNat < 64) : aligned (windowAddr 0x200#11 (i.setWidth 11)) = true
    ∧ region (windowAddr 0x200#11 (i.setWidth 11)) = 2#3
    ∧ ((windowAddr 0x200#11 (i.setWidth 11)).extractLsb' 2 6).setWidth 7 = i := by
  have ha : (windowAddr 0x200#11 (i.setWidth 11)).toNat = 0x200 + 4 * i.toNat := by
    simp only [windowAddr_toNat, BitVec.toNat_setWidth, BitVec.toNat_ofNat]
    omega
  refine ⟨(aligned_iff _).mpr ?_, eq_region ?_, BitVec.eq_of_toNat_eq ?_⟩
  · omega
  · simp only [ha, BitVec.toNat_ofNat]
    omega
  · simp only [BitVec.toNat_setWidth, wordIndex_toNat, ha]
    omega

/-- Word `i` of the RXQ window is an aligned word from 0x400 on with the index `i`. -/
theorem rxqWord_addr (i : BitVec 8) : aligned (windowAddr 0x400#11 (i.setWidth 11)) = true
    ∧ 0x400 ≤ (windowAddr 0x400#11 (i.setWidth 11)).toNat
    ∧ (windowAddr 0x400#11 (i.setWidth 11)).extractLsb' 2 8 = i := by
  have hi := i.isLt
  have ha : (windowAddr 0x400#11 (i.setWidth 11)).toNat = 0x400 + 4 * i.toNat := by
    simp only [windowAddr_toNat, BitVec.toNat_setWidth, BitVec.toNat_ofNat]
    omega
  refine ⟨(aligned_iff _).mpr ?_, ?_, wordIndex_eq ?_⟩ <;> omega

theorem decodeWrite_fbufWord {i : BitVec 7} (d : Word) (h : i.toNat ≤ 64) :
    decodeWrite (windowAddr 0x200#11 (i.setWidth 11)) d = .ok (.wrFbuf i d) := by
  rcases Nat.lt_or_eq_of_le h with hi | hi
  · obtain ⟨ha, hr, hx⟩ := fbufWord_addr hi
    rw [decodeWrite_fbuf d ha hr, hx]
  · obtain rfl : i = 64#7 := BitVec.eq_of_toNat_eq hi
    rfl

theorem decodeRead_fbufWord {i : BitVec 7} (h : i.toNat ≤ 64) :
    decodeRead (windowAddr 0x200#11 (i.setWidth 11)) = .ok (.rdFbuf i) := by
  rcases Nat.lt_or_eq_of_le h with hi | hi
  · obtain ⟨ha, hr, hx⟩ := fbufWord_addr hi
    rw [decodeRead_fbuf ha hr, hx]
  · obtain rfl : i = 64#7 := BitVec.eq_of_toNat_eq hi
    rfl

theorem decodeWrite_readOnly {a : Addr} (d : Word) (h : readOnlyAddr a = true) :
    decodeWrite a d = .ok (.wrRo a d) := by
  rcases readOnlyAddr_cases h with h | ⟨ha, h⟩
  · exact decodeWrite_readOnlyRegister d h
  · exact decodeWrite_rxq d ha h

/-- An instruction that is encoded as a write is decoded from its address and data. -/
theorem decode_encode_write {i : Instr} {a : Addr} {d : Word} (he : encode i = .bus (busOf true a d))
    (hd : decodeWrite a d = .ok i) : decode (encode i) = .ok i := by
  rw [he]
  exact (decodeBus_busOf_write a d).trans hd

/-- An instruction that is encoded as a read is decoded from its address. -/
theorem decode_encode_read {i : Instr} {a : Addr} {d : Word} (he : encode i = .bus (busOf false a d))
    (hd : decodeRead a = .ok i) : decode (encode i) = .ok i := by
  rw [he]
  exact (decodeBus_busOf_read a d).trans hd

/-- Settles O1: by the kind of instruction; a register's address is a number, and a window's is known by its region. -/
theorem decodeOfEncodeIsTheInstruction : Obligations.DecodeOfEncodeIsTheInstruction := by
  intro i hwf
  cases i with
  | nop | encode | send | encsend | decode | getframes => rfl
  | wrCtrl d | wrStatus d | wrCmd d | wrTxtype d | wrPlen d | wrFlen d => exact decode_encode_write rfl rfl
  | rdCtrl | rdStatus | rdCmd | rdErrinfo | rdParam | rdTxtype | rdPlen | rdFlen | rdDres | rdRxlen | rdRxcnt | rdCnt =>
    exact decode_encode_read rfl rfl
  | wrPbuf i d =>
    obtain ⟨ha, hr, hx⟩ := pbufWord_addr i
    exact decode_encode_write rfl (by rw [decodeWrite_pbuf d ha hr, hx])
  | rdPbuf i =>
    obtain ⟨ha, hr, hx⟩ := pbufWord_addr i
    exact decode_encode_read rfl (by rw [decodeRead_pbuf ha hr, hx])
  | wrFbuf i d => exact decode_encode_write rfl (decodeWrite_fbufWord d (of_decide_eq_true hwf))
  | rdFbuf i => exact decode_encode_read rfl (decodeRead_fbufWord (of_decide_eq_true hwf))
  | rdRxq i =>
    obtain ⟨ha, hr, hx⟩ := rxqWord_addr i
    exact decode_encode_read rfl (by rw [decodeRead_rxq ha hr, hx])
  | wrRo a d => exact decode_encode_write rfl (decodeWrite_readOnly d hwf)

/-! ## Decoded instructions encode -/

/-- Whatever the decoder's answer `r` accepts is well formed and has the encoding `t`. -/
def GivesEncodingOf (t : BusWord) (r : Except Reject Instr) : Prop :=
  ∀ i, r = .ok i → i.wf = true ∧ encode i = .bus t

theorem givesEncodingOf_ok {t : BusWord} {i : Instr} (hw : i.wf = true) (he : encode i = .bus t) :
    GivesEncodingOf t (.ok i) := by
  intro j hj
  injection hj with hj
  exact hj ▸ ⟨hw, he⟩

theorem givesEncodingOf_error (t : BusWord) (e : Reject) : GivesEncodingOf t (.error e) := nofun

theorem givesEncodingOf_ite {t : BusWord} {c : Prop} [Decidable c] {r q : Except Reject Instr}
    (hr : c → GivesEncodingOf t r) (hq : ¬ c → GivesEncodingOf t q) : GivesEncodingOf t (if c then r else q) := by
  split
  · next h => exact hr h
  · next h => exact hq h

/-- A line of the map for one address. -/
theorem givesEncodingOf_register {w : Bool} {a c : Addr} {d : Word} {i : Instr} (h : a = c) (hw : i.wf = true)
    (he : encode i = .bus (busOf w c d)) : GivesEncodingOf (busOf w a d) (.ok i) :=
  givesEncodingOf_ok hw (h ▸ he)

/-- An aligned address of region `k` is `k * 0x100` and four times its word index. -/
theorem addr_of_region {a : Addr} {k : BitVec 3} (ha : aligned a = true) (h : region a = k) :
    k.toNat * 256 + 4 * (a.toNat / 4 % 2 ^ 6) = a.toNat := by
  have h4 := (aligned_iff a).mp ha
  have hr := region_toNat a
  rw [h] at hr
  omega

theorem windowAddr_pbuf {a : Addr} (ha : aligned a = true) (h : region a = 1#3) :
    windowAddr 0x100#11 ((a.extractLsb' 2 6).setWidth 11) = a := by
  have := addr_of_region ha h
  apply BitVec.eq_of_toNat_eq
  simp only [windowAddr_toNat, BitVec.toNat_setWidth, wordIndex_toNat, BitVec.toNat_ofNat] at *
  omega

theorem windowAddr_fbuf {a : Addr} (ha : aligned a = true) (h : region a = 2#3) :
    windowAddr 0x200#11 (((a.extractLsb' 2 6).setWidth 7).setWidth 11) = a := by
  have := addr_of_region ha h
  apply BitVec.eq_of_toNat_eq
  simp only [windowAddr_toNat, BitVec.toNat_setWidth, wordIndex_toNat, BitVec.toNat_ofNat] at *
  omega

theorem windowAddr_rxq {a : Addr} (ha : aligned a = true) (h : 0x400 ≤ a.toNat) :
    windowAddr 0x400#11 ((a.extractLsb' 2 8).setWidth 11) = a := by
  have h4 := (aligned_iff a).mp ha
  apply BitVec.eq_of_toNat_eq
  simp only [windowAddr_toNat, BitVec.toNat_setWidth, wordIndex_toNat, BitVec.toNat_ofNat]
  omega

/-- The word index of an address in the FBUF window's region is in range. -/
theorem fbufWordIndex_setWidth (x : BitVec 6) : fbufWordIndex (x.setWidth 7) = true := by
  simp only [fbufWordIndex, BitVec.toNat_setWidth, decide_eq_true_eq]
  omega

theorem encode_of_decodeWrite (a : Addr) (d : Word) : GivesEncodingOf (busOf true a d) (decodeWrite a d) := by
  unfold decodeWrite
  refine givesEncodingOf_ite (fun _ => givesEncodingOf_error _ _) fun hn => ?_
  have ha : aligned a = true := by simpa using hn
  iterate 6 refine givesEncodingOf_ite (fun h => givesEncodingOf_register h rfl rfl) fun _ => ?_
  refine givesEncodingOf_ite (fun h => givesEncodingOf_register (windowAddr_pbuf ha h).symm rfl rfl) fun _ => ?_
  refine givesEncodingOf_ite (fun h => givesEncodingOf_register (windowAddr_fbuf ha h).symm
    (fbufWordIndex_setWidth _) rfl) fun _ => ?_
  refine givesEncodingOf_ite (fun h => givesEncodingOf_register h rfl rfl) fun _ => ?_
  exact givesEncodingOf_ite (fun h => givesEncodingOf_ok h rfl) fun _ => givesEncodingOf_error _ _

theorem encode_of_decodeRead (a : Addr) : GivesEncodingOf (busOf false a 0#32) (decodeRead a) := by
  unfold decodeRead
  refine givesEncodingOf_ite (fun _ => givesEncodingOf_error _ _) fun hn => ?_
  have ha : aligned a = true := by simpa using hn
  iterate 12 refine givesEncodingOf_ite (fun h => givesEncodingOf_register h rfl rfl) fun _ => ?_
  refine givesEncodingOf_ite (fun h => givesEncodingOf_register (windowAddr_pbuf ha h).symm rfl rfl) fun _ => ?_
  refine givesEncodingOf_ite (fun h => givesEncodingOf_register (windowAddr_fbuf ha h).symm
    (fbufWordIndex_setWidth _) rfl) fun _ => ?_
  refine givesEncodingOf_ite (fun h => givesEncodingOf_register h rfl rfl) fun _ => ?_
  refine givesEncodingOf_ite (fun h => ?_) fun _ => givesEncodingOf_error _ _
  have h10 : 0x400 ≤ a.toNat := (getElem_ten_iff a).mp (by simpa using h)
  exact givesEncodingOf_register (windowAddr_rxq ha h10).symm rfl rfl

/-- The transaction that the encoder writes for what `t` decodes to: a read's data bits mean nothing (log entry 5). -/
def canonicalTransaction (t : BusWord) : BusWord := if busW t then t else busOf false (busA t) 0#32

theorem encode_of_decodeBus (t : BusWord) : GivesEncodingOf (canonicalTransaction t) (decodeBus t) := by
  unfold decodeBus canonicalTransaction
  split
  · next hw =>
    have h := encode_of_decodeWrite (busA t) (busD t)
    rwa [← hw, busOf_fields] at h
  · exact encode_of_decodeRead _

/-- Settles O2: each line of the map gives an instruction whose encoding has the line's address. -/
theorem encodeOfDecodeIsTheWord : Obligations.EncodeOfDecodeIsTheWord :=
  ⟨fun _ _ => encode_of_decodeCmd, fun t i => encode_of_decodeBus t i⟩

end Sys2Proof.Machine
end

section
/-! The decoder and the rows of the opcode table (spec/30_encoding.md R96 to R98, spec/opcode_table.json). -/

namespace Sys2Proof.Machine

/-! ## No transaction in two rows -/

/-- Where one word matches two rows, the rows' values agree on the bits that both masks fix. -/
theorem values_agree_of_matches {n : Nat} {t m v m' v' : BitVec n} (h : t &&& m = v) (h' : t &&& m' = v') :
    v &&& m' = v' &&& m := by
  rw [← h, ← h', BitVec.and_assoc, BitVec.and_comm m m', ← BitVec.and_assoc]

/-- Two rows of the table differ in a bit that both of their masks fix. -/
theorem busTable_rows_disjoint : ∀ r ∈ busTable, ∀ q ∈ busTable, r.value &&& q.mask = q.value &&& r.mask → r = q := by
  decide

/-- Settles O4: two rows' values that agree on the bits of both masks are the same row's. -/
theorem noTransactionMatchesTwoRows : Obligations.NoTransactionMatchesTwoRows :=
  fun _ r hr q hq h h' => busTable_rows_disjoint r hr q hq (values_agree_of_matches h h')

/-! ## What the decoder accepts matches a row -/

/-- Every well-formed instruction's encoding is in the table, under its mnemonic. -/
theorem encode_inTable {i : Instr} (h : i.wf = true) : Laws.inTable i.mnemonic (encode i) := by
  cases i with
  | nop => exact Laws.EncodeMatchesTable.nop h
  | encode => exact Laws.EncodeMatchesTable.encode h
  | send => exact Laws.EncodeMatchesTable.send h
  | encsend => exact Laws.EncodeMatchesTable.encsend h
  | decode => exact Laws.EncodeMatchesTable.decode h
  | getframes => exact Laws.EncodeMatchesTable.getframes h
  | wrCtrl d => exact Laws.EncodeMatchesTable.wrCtrl d h
  | rdCtrl => exact Laws.EncodeMatchesTable.rdCtrl h
  | wrStatus d => exact Laws.EncodeMatchesTable.wrStatus d h
  | rdStatus => exact Laws.EncodeMatchesTable.rdStatus h
  | wrCmd d => exact Laws.EncodeMatchesTable.wrCmd d h
  | rdCmd => exact Laws.EncodeMatchesTable.rdCmd h
  | rdErrinfo => exact Laws.EncodeMatchesTable.rdErrinfo h
  | rdParam => exact Laws.EncodeMatchesTable.rdParam h
  | wrTxtype d => exact Laws.EncodeMatchesTable.wrTxtype d h
  | rdTxtype => exact Laws.EncodeMatchesTable.rdTxtype h
  | wrPlen d => exact Laws.EncodeMatchesTable.wrPlen d h
  | rdPlen => exact Laws.EncodeMatchesTable.rdPlen h
  | wrFlen d => exact Laws.EncodeMatchesTable.wrFlen d h
  | rdFlen => exact Laws.EncodeMatchesTable.rdFlen h
  | rdDres => exact Laws.EncodeMatchesTable.rdDres h
  | rdRxlen => exact Laws.EncodeMatchesTable.rdRxlen h
  | rdRxcnt => exact Laws.EncodeMatchesTable.rdRxcnt h
  | rdCnt => exact Laws.EncodeMatchesTable.rdCnt h
  | wrPbuf i d => exact Laws.EncodeMatchesTable.wrPbuf i d h
  | rdPbuf i => exact Laws.EncodeMatchesTable.rdPbuf i h
  | wrFbuf i d => exact Laws.EncodeMatchesTable.wrFbuf i d h
  | rdFbuf i => exact Laws.EncodeMatchesTable.rdFbuf i h
  | rdRxq i => exact Laws.EncodeMatchesTable.rdRxq i h
  | wrRo a d => exact Laws.EncodeMatchesTable.wrRo a d h

/-- A command has no operand, so it is well formed. -/
theorem wf_of_encode_cmd {i : Instr} {w : Word} (h : encode i = .cmd w) : i.wf = true := by
  cases i with
  | wrFbuf | rdFbuf | wrRo => cases h
  | _ => rfl

/-- No row of the table looks at D. -/
theorem busTable_masks_leave_data : ∀ r ∈ busTable, r.mask = r.mask.extractLsb' 32 12 ++ 0#32 := by decide

theorem and_mask_data_irrel {r : BusRow} (hr : r ∈ busTable) (w : Bool) (a : Addr) (d d' : Word) :
    busOf w a d &&& r.mask = busOf w a d' &&& r.mask := by
  rw [busTable_masks_leave_data r hr, busOf_and_mask, busOf_and_mask]

/-- A row sees no difference between a transaction and the one that the encoder writes. -/
theorem canonicalTransaction_and_mask {r : BusRow} (hr : r ∈ busTable) (t : BusWord) :
    canonicalTransaction t &&& r.mask = t &&& r.mask := by
  unfold canonicalTransaction
  split
  · rfl
  · next hw =>
    rw [← Bool.eq_false_iff.mpr hw, and_mask_data_irrel hr _ _ _ (busD t), busOf_fields]

theorem row_of_decodeBus {t : BusWord} {i : Instr} (h : decodeBus t = .ok i) :
    ∃ r ∈ busTable, r.mnemonic = i.mnemonic ∧ t &&& r.mask = r.value := by
  obtain ⟨hwf, he⟩ := encode_of_decodeBus t i h
  obtain ⟨r, hr, hm, hv⟩ : Laws.inTable i.mnemonic (.bus (canonicalTransaction t)) := he ▸ encode_inTable hwf
  exact ⟨r, hr, hm, canonicalTransaction_and_mask hr t ▸ hv⟩

theorem row_of_decodeCmd {w : Word} {i : Instr} (h : decodeCmd w = .ok i) :
    ∃ r ∈ cmdTable, r.mnemonic = i.mnemonic ∧ w &&& r.mask = r.value := by
  have he := encode_of_decodeCmd h
  have hin : Laws.inTable i.mnemonic (.cmd w) := he ▸ encode_inTable (wf_of_encode_cmd he)
  exact hin

/-! ## What matches a row is accepted -/

theorem busA_and (t m : BusWord) : busA (t &&& m) = busA t &&& busA m := BitVec.extractLsb'_and

/-- A row that fixes W fixes whether the transaction is a write. -/
theorem busW_of_matches {t m v : BusWord} {w : Bool} (h : t &&& m = v) (hm : busW m = true) (hv : busW v = w) :
    busW t = w := by
  rw [← hv, ← h]
  simp only [busW, BitVec.getLsbD_and] at *
  rw [hm, Bool.and_true]

/-- A row that fixes the whole of A fixes the address. -/
theorem busA_of_matches {t m v : BusWord} (h : t &&& m = v) (hm : busA m = BitVec.allOnes 11) : busA t = busA v := by
  rw [← h, busA_and, hm, BitVec.and_allOnes]

/-- A field of the address that a row fixes is the row's. -/
theorem busA_field_of_matches {t m v : BusWord} (h : t &&& m = v) {i k : Nat} {x : BitVec k}
    (hm : (busA m).extractLsb' i k = BitVec.allOnes k) (hv : (busA v).extractLsb' i k = x) :
    (busA t).extractLsb' i k = x := by
  rw [← hv, ← h, busA_and, BitVec.extractLsb'_and, hm, BitVec.and_allOnes]

theorem aligned_of_matches {t m v : BusWord} (h : t &&& m = v) (hm : (busA m).extractLsb' 0 2 = BitVec.allOnes 2)
    (hv : (busA v).extractLsb' 0 2 = 0#2) : aligned (busA t) = true :=
  decide_eq_true (busA_field_of_matches h hm hv)

theorem region_of_matches {t m v : BusWord} {k : BitVec 3} (h : t &&& m = v)
    (hm : region (busA m) = BitVec.allOnes 3) (hv : region (busA v) = k) : region (busA t) = k :=
  busA_field_of_matches h hm hv

/-- A row that fixes A[10] to 1 lies in the RXQ window. -/
theorem rxq_of_matches {t m v : BusWord} (h : t &&& m = v) (hm : (busA m).extractLsb' 10 1 = BitVec.allOnes 1)
    (hv : (busA v).extractLsb' 10 1 = 1#1) : 0x400 ≤ (busA t).toNat := by
  have := congrArg BitVec.toNat (busA_field_of_matches h hm hv)
  simp only [BitVec.extractLsb'_toNat, Nat.shiftRight_eq_div_pow, BitVec.toNat_ofNat] at this
  omega

theorem decodeBus_write {t : BusWord} (h : busW t = true) : decodeBus t = decodeWrite (busA t) (busD t) := if_pos h

theorem decodeBus_read {t : BusWord} (h : busW t = false) : decodeBus t = decodeRead (busA t) := by simp [decodeBus, h]

/-- The rows that leave bits of A open, in the table's order: PBUF, FBUF, and RXQ with its read-only writes. -/
def openRows : List BusRow := [
  ⟨"WR_PBUF", 0xF0300000000#44, 0x90000000000#44⟩,
  ⟨"RD_PBUF", 0xF0300000000#44, 0x10000000000#44⟩,
  ⟨"WR_FBUF", 0xF0300000000#44, 0xA0000000000#44⟩,
  ⟨"RD_FBUF", 0xF0300000000#44, 0x20000000000#44⟩,
  ⟨"RD_RXQ", 0xC0300000000#44, 0x40000000000#44⟩,
  ⟨"WR_RO", 0xC0300000000#44, 0xC0000000000#44⟩]

/-- A transaction in such a row lies in the row's window, where the decoder knows every word. -/
theorem decodeBus_of_openRow {t : BusWord} {r : BusRow} (hr : r ∈ openRows) (h : t &&& r.mask = r.value) :
    ∃ i, decodeBus t = .ok i ∧ i.mnemonic = r.mnemonic := by
  simp only [openRows, List.mem_cons, List.not_mem_nil, or_false] at hr
  rcases hr with rfl | rfl | rfl | rfl | rfl | rfl
  · have hd := decodeWrite_pbuf (busD t) (aligned_of_matches h rfl rfl) (region_of_matches h rfl rfl)
    exact ⟨_, (decodeBus_write (busW_of_matches h rfl rfl)).trans hd, rfl⟩
  · have hd := decodeRead_pbuf (aligned_of_matches h rfl rfl) (region_of_matches h rfl rfl)
    exact ⟨_, (decodeBus_read (busW_of_matches h rfl rfl)).trans hd, rfl⟩
  · have hd := decodeWrite_fbuf (busD t) (aligned_of_matches h rfl rfl) (region_of_matches h rfl rfl)
    exact ⟨_, (decodeBus_write (busW_of_matches h rfl rfl)).trans hd, rfl⟩
  · have hd := decodeRead_fbuf (aligned_of_matches h rfl rfl) (region_of_matches h rfl rfl)
    exact ⟨_, (decodeBus_read (busW_of_matches h rfl rfl)).trans hd, rfl⟩
  · have hd := decodeRead_rxq (aligned_of_matches h rfl rfl) (rxq_of_matches h rfl rfl)
    exact ⟨_, (decodeBus_read (busW_of_matches h rfl rfl)).trans hd, rfl⟩
  · have hd := decodeWrite_rxq (busD t) (aligned_of_matches h rfl rfl) (rxq_of_matches h rfl rfl)
    exact ⟨_, (decodeBus_write (busW_of_matches h rfl rfl)).trans hd, rfl⟩

theorem decodes_iff_map {r : Except Reject Instr} {m : String} :
    (∃ i, r = .ok i ∧ i.mnemonic = m) ↔ r.map Instr.mnemonic = .ok m := by
  cases r with
  | ok i => simp [Except.map]
  | error e => simp [Except.map]

/-- Which instruction a write is does not hang on its data. -/
theorem decodeWrite_mnemonic_data_irrel (a : Addr) (d d' : Word) :
    (decodeWrite a d).map Instr.mnemonic = (decodeWrite a d').map Instr.mnemonic := by
  simp only [decodeWrite, apply_ite (Except.map Instr.mnemonic)]
  rfl

/-- Which instruction a transaction is hangs on W and A alone. -/
theorem decodeBus_mnemonic_congr {t u : BusWord} (hw : busW t = busW u) (ha : busA t = busA u) :
    (decodeBus t).map Instr.mnemonic = (decodeBus u).map Instr.mnemonic := by
  unfold decodeBus
  rw [hw, ha]
  split
  · exact decodeWrite_mnemonic_data_irrel _ _ _
  · rfl

/-- The other rows fix W and A, and the decoder is run on their values. -/
theorem busTable_row_cases : ∀ r ∈ busTable, r ∈ openRows
    ∨ (r.mask = 0xFFF00000000#44 ∧ (decodeBus r.value).map Instr.mnemonic = .ok r.mnemonic) := by decide

theorem decodeBus_of_row {t : BusWord} {r : BusRow} (hr : r ∈ busTable) (h : t &&& r.mask = r.value) :
    ∃ i, decodeBus t = .ok i ∧ i.mnemonic = r.mnemonic := by
  rcases busTable_row_cases r hr with ho | ⟨hm, hd⟩
  · exact decodeBus_of_openRow ho h
  · rw [hm] at h
    rw [decodes_iff_map, ← hd]
    exact decodeBus_mnemonic_congr (busW_of_matches h rfl rfl) (busA_of_matches h rfl)

/-- A CMD row fixes the whole word, and the decoder is run on it. -/
theorem cmdTable_rows : ∀ r ∈ cmdTable, r.mask = BitVec.allOnes 32
    ∧ (decodeCmd r.value).map Instr.mnemonic = .ok r.mnemonic := by decide

theorem decodeCmd_of_row {w : Word} {r : CmdRow} (hr : r ∈ cmdTable) (h : w &&& r.mask = r.value) :
    ∃ i, decodeCmd w = .ok i ∧ i.mnemonic = r.mnemonic := by
  obtain ⟨hm, hd⟩ := cmdTable_rows r hr
  rw [hm, BitVec.and_allOnes] at h
  rwa [decodes_iff_map, h]

/-- Settles O3: what the decoder accepts encodes to its row's word, and a row's match decodes to the row's instruction. -/
theorem decoderFollowsTheOpcodeTable : Obligations.DecoderFollowsTheOpcodeTable := by
  refine ⟨fun w m => ⟨?_, ?_⟩, fun t m => ⟨?_, ?_⟩⟩
  · rintro ⟨i, hd, rfl⟩
    exact row_of_decodeCmd hd
  · rintro ⟨r, hr, rfl, h⟩
    exact decodeCmd_of_row hr h
  · rintro ⟨i, hd, rfl⟩
    exact row_of_decodeBus hd
  · rintro ⟨r, hr, rfl, h⟩
    exact decodeBus_of_row hr h

end Sys2Proof.Machine
end

section
/-! The start and the failure of a send (spec/41_send.md R150 to R153), the host's WAIT (R102), and the writes of TXTYPE
and PLEN (R220, R222). -/

namespace Sys2Proof.Machine

/-- A completion of a command other than GETFRAMES, with anything but TimeoutExceeded, is R241 alone. -/
theorem finish_eq_completed {s : State} {e : ErrKind} (info : Word) (hc : s.cmd ≠ 5#32) (ht : e ≠ .timeoutExceeded) :
    finish e info s = completed e.code info s := by
  simp [finish, completed, State.isGetframes, hc, ht]

/-! ## The start of SEND (R150, R151) -/

theorem sendStart_of_closed {s : State} (he : s.en = false) :
    sendStart s = .next (finish .notOpen (fields 0#32 s.opcodeWord 0#32) s) := by simp [sendStart, finished, he]

theorem sendStart_of_badLength {s : State} (he : s.en = true) (h7 : s.flen.toNat % 7 ≠ 0) :
    sendStart s = .next (finish .invalidFrameLength (zext32 s.flen) s) := by simp [sendStart, finished, he, h7]

theorem nextChunk_of_last {s : State} (hk : s.k = s.nch) : nextChunk s = .next (finish .ok 0#32 s) := if_pos hk

theorem nextChunk_of_cancel {s : State} (hk : s.k ≠ s.nch) (hc : s.cancel = true) :
    nextChunk s = .next (finish .cancelled (fields 0#32 s.opcodeWord (BitVec.ofNat 32 s.k)) s) := by
  simp [nextChunk, finished, hk, hc]

theorem nextChunk_of_left {s : State} (hk : s.k ≠ s.nch) (hc : s.cancel = false) (hb : s.k < 37) :
    nextChunk s = .next (issueChunk s) := by
  have h260 : 7 * s.k + 7 ≤ 260 := by omega
  simp [nextChunk, hk, hc, h260]

/-- The record of a SEND that ends before its first chunk has only the opcode in it (R242). -/
theorem fields_opcodeWord_send {s : State} (hc : s.cmd = 2#32) : fields 0#32 s.opcodeWord 0#32 = 0x200#32 := by
  rw [State.opcodeWord, hc]
  rfl

/-- Settles O46: SENDSTART refuses, or goes to NEXTCHUNK with K = 0. -/
theorem sendStartsTheLoop : Obligations.SendStartsTheLoop := by
  intro s hc
  have h5 : s.cmd ≠ 5#32 := by simp [hc]
  refine ⟨fun he => ?_, fun he h7 => ?_, fun he h0 => ?_, fun he h7 h0 => ?_⟩
  · have hs : exec .send s = _ := sendStart_of_closed (s := { s with txcnt := 0#16 }) he
    have hop : fields 0#32 (State.opcodeWord { s with txcnt := 0#16 }) 0#32 = 0x200#32 := fields_opcodeWord_send hc
    rw [hs, finish_eq_completed (s := { s with txcnt := 0#16 }) _ h5 (by decide), hop]
    rfl
  · have hs : exec .send s = _ := sendStart_of_badLength (s := { s with txcnt := 0#16 }) he h7
    rw [hs, finish_eq_completed (s := { s with txcnt := 0#16 }) _ h5 (by decide)]
    rfl
  · have hk : (sendBegun s).k = (sendBegun s).nch := by simp [sendBegun, h0]
    rw [exec_send_of_chunks he (by simp [h0]), nextChunk_of_last hk,
      finish_eq_completed (s := sendBegun s) _ h5 (by decide)]
    simp [sendBegun, h0, ErrKind.code]
  · have hk : (sendBegun s).k ≠ (sendBegun s).nch := by
      have hne : s.flen.toNat ≠ 0 := fun h => h0 (BitVec.eq_of_toNat_eq h)
      simp only [sendBegun]
      omega
    rw [exec_send_of_chunks he h7]
    refine ⟨fun hcan => ?_, fun hcan => ⟨txBlock s 0, isBlock_txBlock s 0, ?_⟩⟩
    · have hop : fields 0#32 (sendBegun s).opcodeWord (BitVec.ofNat 32 (sendBegun s).k) = 0x200#32 :=
        fields_opcodeWord_send (s := sendBegun s) hc
      rw [nextChunk_of_cancel hk hcan, finish_eq_completed (s := sendBegun s) _ h5 (by decide), hop]
      rfl
    · rw [nextChunk_of_left hk hcan (by simp [sendBegun])]
      rfl

/-! ## The answer Err (R153) -/

/-- A step in which the TX transport answers the outstanding write takes the answer from its list (R42, R94). -/
theorem step_of_txAnswers {s : State} {a : TxAck} (h : txAnswers s a) :
    step s = txAnswered a.answer
      { s with env := { s.env with tx := s.env.tx.tail, sched := s.env.sched.tail } } := by
  obtain ⟨hm, hx, ha⟩ := h
  obtain ⟨rest, hl⟩ := List.head?_eq_some_iff.mp ha
  rw [step_eq, hm]
  simp [move, txMove, txAnswer, State.scheduled, hl, hx]

/-- Settles O48: the answer step's error case. -/
theorem errorAnswerEndsTheSend : Obligations.ErrorAnswerEndsTheSend := by
  intro s a h he hc hk
  have h5 : s.cmd ≠ 5#32 := by rcases hc with hc | hc <;> simp [hc]
  have herr : a.answer = .err a.code := by simp [TxAck.answer, he]
  have hstep : step s = .next (finish .transportError
      (fields (zext32 a.code) s.opcodeWord (BitVec.ofNat 32 s.k)) (afterTx s)) := by
    rw [step_of_txAnswers h, herr]
    rfl
  refine ⟨_, fields_extract a.code (s.cmd.extractLsb' 0 8) (BitVec.ofNat 9 s.k), ?_⟩
  rw [hstep, finish_eq_completed (s := afterTx s) _ h5 (by decide), zext32_ofNat9 (by omega)]
  rfl

/-! ## WAIT (R102, R217) -/

/-- Bit 0 of STATUS is BUSY (R217). -/
theorem statusWord_getLsbD_zero (s : State) : s.statusWord.getLsbD 0 = s.busy := by
  simp [State.statusWord, flagWord, zext32]

/-- The host's move at a WAIT reads STATUS, and takes the WAIT off its list when no command is in progress. -/
theorem hostMove_of_wait {s : State} (h : s.env.host.head? = some .wait) :
    hostMove s = .next { s with
      resp := .data s.statusWord
      env := { s.env with host := if s.busy then s.env.host else s.env.host.tail } } := by
  obtain ⟨rest, hl⟩ := List.head?_eq_some_iff.mp h
  have hmove : hostMove s = if s.busy then exec .rdStatus s else exec .rdStatus s.hostTakes := by simp [hostMove, hl]
  by_cases hb : s.busy = true
  · rw [hmove, if_pos hb, if_pos hb]
    rfl
  · rw [hmove, if_neg hb, if_neg hb]
    rfl

/-- Settles O10: the value read is STATUS, whose bit 0 is BUSY. -/
theorem waitReadsStatusUntilNotBusy : Obligations.WaitReadsStatusUntilNotBusy := by
  intro s hm hh
  refine ⟨s.statusWord, statusWord_getLsbD_zero s, rfl, ?_⟩
  have hmove := hostMove_of_wait (s := s.scheduled) hh
  rw [step_eq, hm]
  exact hmove

/-! ## TXTYPE and PLEN (R220, R222) -/

/-- Settles O34: both writes are gated, and store the byte when they are let through. -/
theorem txtypeAndPlenWritesStoreTheLowByte : Obligations.TxtypeAndPlenWritesStoreTheLowByte :=
  fun _ _ => ⟨fun hb => ⟨whenIdle_idle hb, whenIdle_idle hb⟩, fun hb => ⟨whenIdle_busy hb, whenIdle_busy hb⟩⟩

end Sys2Proof.Machine
end

section
/-! The frame codec: the frame that ENCODE writes and its parity, DECODE's checks, the round trip, and ENCSEND
(spec/40_codec.md R121 to R124, spec/41_send.md R152). -/

namespace Sys2Proof.Machine

/-! ## The padded frame, part by part (R91, R93, R121) -/

theorem frameBody_length (t : Byte) (p : List Byte) : (frameBody t p).length = p.length + 2 := rfl

/-- The bytes before the parity are the frame's body. -/
theorem paddedFrame_getElem_body (t : Byte) (p : List Byte) {i : Nat} (h : i < (paddedFrame t p).length)
    (hi : i < (frameBody t p).length) : (paddedFrame t p)[i] = (frameBody t p)[i] :=
  List.getElem_append_left hi

theorem paddedFrame_getElem_parity (t : Byte) {p : List Byte} {n : Nat} (hn : p.length = n)
    (h : n + 2 < (paddedFrame t p).length) : (paddedFrame t p)[n + 2] = xorBytes (frameBody t p) :=
  List.getElem_of_append rfl (by rw [frameBody_length, hn])

theorem paddedFrame_getElem_padding (t : Byte) (p : List Byte) {i : Nat} (h : i < (paddedFrame t p).length)
    (hi : p.length + 3 ≤ i) : (paddedFrame t p)[i] = 0#8 := by
  obtain ⟨j, rfl⟩ := Nat.exists_eq_add_of_le' hi
  have hlen : (frameBody t p).length ≤ j + (p.length + 3) := by rw [frameBody_length]; omega
  have hidx : j + (p.length + 3) - (p.length + 2) = j + 1 := by omega
  simp only [paddedFrame, List.getElem_append_right hlen, frameBody_length, hidx, List.getElem_cons_succ,
    List.getElem_replicate]

/-! ## What ENCODE writes (R121) -/

theorem payloadTooLong_iff (s : State) : payloadTooLong s = true ↔ 252 < s.plen.toNat := decide_eq_true_iff

theorem exec_encode_of_tooLong {s : State} (hp : 252 < s.plen.toNat) :
    exec .encode s = .next (finish .payloadTooLong (zext32 s.plen) s) := if_pos ((payloadTooLong_iff s).mpr hp)

theorem exec_encode_of_fits {s : State} (hp : s.plen.toNat ≤ 252) :
    exec .encode s = .next (finish .ok 0#32 (encodeFrame s)) :=
  if_neg fun h => absurd ((payloadTooLong_iff s).mp h) (by omega)

/-- The frame that ENCODE writes in `s`. -/
abbrev builtFrame (s : State) : List Byte := paddedFrame s.txtype (s.pbufBytes s.plen.toNat)

theorem builtFrame_length (s : State) : (builtFrame s).length = roundup7 (encLen s.plen.toNat) := by
  rw [paddedFrame_length, pbufBytes_length]

theorem encodeFrame_flen {s : State} (hp : s.plen.toNat ≤ 252) :
    (encodeFrame s).flen.toNat = (builtFrame s).length := by
  have h := (padded_size_bounds hp).2
  rw [builtFrame_length]
  simp only [encodeFrame, BitVec.toNat_ofNat]
  omega

theorem plen_add_three_le_builtFrame_length (s : State) : s.plen.toNat + 3 ≤ (builtFrame s).length := by
  rw [builtFrame_length]
  exact le_roundup7 _

/-- Every byte outside the frame is left alone. -/
theorem encodeFrame_read_outside (s : State) {a : Nat} (h : a < 0x200 ∨ 0x200 + (builtFrame s).length ≤ a) :
    Memory.read (encodeFrame s).mem a = Memory.read s.mem a :=
  memory_read_writeBytes_outside s.mem (builtFrame s) h

section Written
variable {s : State} (hm : Memory.wf s.mem = true)
include hm

theorem encodeFrame_fbuf {i : Nat} (h : i < (builtFrame s).length) : (encodeFrame s).fbuf i = (builtFrame s)[i] :=
  memory_read_writeBytes_inside hm i h

theorem encodeFrame_fbufBytes_all : (encodeFrame s).fbufBytes 0 (builtFrame s).length = builtFrame s :=
  memory_readBytes_writeBytes fbufBase (builtFrame s) hm

theorem encodeFrame_fbuf_body {i : Nat} (h : i < (frameBody s.txtype (s.pbufBytes s.plen.toNat)).length) :
    (encodeFrame s).fbuf i = (frameBody s.txtype (s.pbufBytes s.plen.toNat))[i] := by
  have hlen := plen_add_three_le_builtFrame_length s
  have hb := h
  rw [frameBody_length, pbufBytes_length] at hb
  rw [encodeFrame_fbuf hm (by omega)]
  exact paddedFrame_getElem_body _ _ _ h

/-- The bytes before the parity, read together, are the frame's body. -/
theorem encodeFrame_fbufBytes_body :
    (encodeFrame s).fbufBytes 0 (s.plen.toNat + 2) = frameBody s.txtype (s.pbufBytes s.plen.toNat) := by
  apply List.ext_getElem
  · simp [State.fbufBytes, frameBody_length, pbufBytes_length]
  · intro i h hb
    exact (memory_readBytes_getElem _ _ _ _ h).trans (encodeFrame_fbuf_body hm hb)

theorem encodeFrame_fbuf_type : (encodeFrame s).fbuf 0 = s.txtype :=
  encodeFrame_fbuf_body hm (by simp [frameBody_length])

theorem encodeFrame_fbuf_len (hp : s.plen.toNat ≤ 252) : ((encodeFrame s).fbuf 1).toNat = s.plen.toNat + 1 := by
  have h : (encodeFrame s).fbuf 1 = BitVec.ofNat 8 ((s.pbufBytes s.plen.toNat).length + 1) :=
    encodeFrame_fbuf_body hm (by simp [frameBody_length])
  rw [h, pbufBytes_length, BitVec.toNat_ofNat]
  omega

theorem encodeFrame_fbuf_payload {i : Nat} (h : i < s.plen.toNat) : (encodeFrame s).fbuf (2 + i) = s.pbuf i := by
  have hi : i < (s.pbufBytes s.plen.toNat).length := by rwa [pbufBytes_length]
  rw [Nat.add_comm, encodeFrame_fbuf_body hm (by rw [frameBody_length]; omega)]
  exact memory_readBytes_getElem _ _ _ _ hi

/-- The parity byte is the XOR of the bytes before it (R124). -/
theorem encodeFrame_fbuf_parity :
    (encodeFrame s).fbuf (s.plen.toNat + 2) = xorBytes ((encodeFrame s).fbufBytes 0 (s.plen.toNat + 2)) := by
  have hlen := plen_add_three_le_builtFrame_length s
  rw [encodeFrame_fbufBytes_body hm, encodeFrame_fbuf hm (by omega)]
  exact paddedFrame_getElem_parity s.txtype (pbufBytes_length s _) _

theorem encodeFrame_fbuf_padding {i : Nat} (hi : s.plen.toNat + 3 ≤ i) (h : i < (builtFrame s).length) :
    (encodeFrame s).fbuf i = 0#8 := by
  rw [encodeFrame_fbuf hm h]
  exact paddedFrame_getElem_padding _ _ _ (by rwa [pbufBytes_length])

end Written

/-- Settles O42: a refusal, or the completion after the frame's bytes. -/
theorem encodeWritesThePaddedFrame : Obligations.EncodeWritesThePaddedFrame := by
  intro s hc hm
  have h5 : s.cmd ≠ 5#32 := by simp [hc]
  refine ⟨fun hp => ?_, fun hp => ⟨_, exec_encode_of_fits hp, ?_, ?_, encodeFrame_fbuf_type hm,
    encodeFrame_fbuf_len hm hp, fun i => encodeFrame_fbuf_payload hm, encodeFrame_fbuf_parity hm,
    fun i hi h => encodeFrame_fbuf_padding hm hi (encodeFrame_flen hp ▸ h),
    fun a h => encodeFrame_read_outside s (encodeFrame_flen hp ▸ h)⟩⟩
  · rw [exec_encode_of_tooLong hp, finish_eq_completed _ h5 (by decide)]
    rfl
  · rw [finish_eq_completed (s := encodeFrame s) _ h5 (by decide)]
    rfl
  · exact (encodeFrame_flen hp).trans (builtFrame_length s)

/-- Settles O43: an ENCODE that completes with OK has written the padded frame, whose XOR is 0. -/
theorem encodedFrameHasEvenParity : Obligations.EncodedFrameHasEvenParity := by
  intro s t hm h he
  by_cases hp : s.plen.toNat ≤ 252
  · rw [exec_encode_of_fits hp] at h
    cases h
    refine ⟨encodeFrame_fbuf_parity hm, ?_⟩
    have hall : (encodeFrame s).fbufBytes 0 (encodeFrame s).flen.toNat = builtFrame s := by
      rw [encodeFrame_flen hp, encodeFrame_fbufBytes_all hm]
    exact (congrArg xorBytes hall).trans (paddedFrame_xor _ _)
  · rw [exec_encode_of_tooLong (by omega)] at h
    cases h
    cases he

/-! ## DECODE's checks, branch by branch (R122) -/

section Decode
variable {s : State}

theorem exec_decode_of_short (h : s.flen.toNat < 2) :
    exec .decode s = .next (finish .shortFrame (zext32 s.flen) s) := if_pos h

theorem exec_decode_of_badLength (h : 2 ≤ s.flen.toNat) (hl : (s.fbuf 1).toNat < 2) :
    exec .decode s = .next (finish .invalidDeclaredLength (zext32 (s.fbuf 1)) s) :=
  (if_neg (by omega)).trans (if_pos hl)

theorem exec_decode_of_incomplete (hl : 2 ≤ (s.fbuf 1).toNat) (h : 2 ≤ s.flen.toNat)
    (hf : s.flen.toNat < 2 + (s.fbuf 1).toNat) :
    exec .decode s = .next (finish .shortFrame (zext32 s.flen) s) :=
  (if_neg (by omega)).trans ((if_neg (Nat.not_lt.mpr hl)).trans (if_pos hf))

theorem exec_decode_of_badParity (hl : 2 ≤ (s.fbuf 1).toNat) (hf : 2 + (s.fbuf 1).toNat ≤ s.flen.toNat)
    (hx : decodeParity s ≠ s.fbuf (1 + (s.fbuf 1).toNat)) :
    exec .decode s = .next (finish .parityMismatch
      (fields (zext32 (s.fbuf (1 + (s.fbuf 1).toNat))) (zext32 (decodeParity s)) 0#32) s) :=
  (if_neg (by omega)).trans ((if_neg (Nat.not_lt.mpr hl)).trans ((if_neg (Nat.not_lt.mpr hf)).trans (if_pos hx)))

theorem exec_decode_of_goodParity (hl : 2 ≤ (s.fbuf 1).toNat) (hf : 2 + (s.fbuf 1).toNat ≤ s.flen.toNat)
    (hx : decodeParity s = s.fbuf (1 + (s.fbuf 1).toNat)) :
    exec .decode s = .next (finish .ok 0#32
      { s with dtype := s.fbuf 0, dlen := s.fbuf 1, dpar := s.fbuf (1 + (s.fbuf 1).toNat) }) :=
  (if_neg (by omega)).trans
    ((if_neg (Nat.not_lt.mpr hl)).trans ((if_neg (Nat.not_lt.mpr hf)).trans (if_neg (not_not.mpr hx))))

end Decode

theorem decodeParity_eq (s : State) : decodeParity s = xorBytes (s.fbufBytes 0 (1 + (s.fbuf 1).toNat)) := by
  rw [Nat.add_comm]
  rfl

/-- Settles O45: each check's refusal, and past all of them the result. -/
theorem decodeChecksInOrder : Obligations.DecodeChecksInOrder := by
  intro s hc
  have h5 : s.cmd ≠ 5#32 := by simp [hc]
  refine ⟨fun h => ?_, fun h hl => ?_, fun h hl hf => ?_, fun hl hf => ⟨fun hx => ?_, fun hx => ?_⟩⟩
  · rw [exec_decode_of_short h, finish_eq_completed _ h5 (by decide)]
    rfl
  · rw [exec_decode_of_badLength h hl, finish_eq_completed _ h5 (by decide)]
    rfl
  · rw [exec_decode_of_incomplete hl h hf, finish_eq_completed _ h5 (by decide)]
    rfl
  · rw [← decodeParity_eq] at hx ⊢
    refine ⟨_, ?_, fields_extract (s.fbuf (1 + (s.fbuf 1).toNat)) (decodeParity s) 0#9⟩
    rw [exec_decode_of_badParity hl hf hx, finish_eq_completed _ h5 (by decide)]
    rfl
  · rw [← decodeParity_eq] at hx
    rw [exec_decode_of_goodParity hl hf hx]
    exact congrArg _ (finish_eq_completed _ h5 (by decide))

/-- Settles O44: what ENCODE wrote passes DECODE's checks, except that an empty payload's declared length is 1. -/
theorem decodeOfEncodedFrameGivesItBack : Obligations.DecodeOfEncodedFrameGivesItBack := by
  intro s hc hm hp
  obtain ⟨t, ht, hkeep, hflen, htype, hlen, hpay, hpar, -, -⟩ := (encodeWritesThePaddedFrame s hc hm).2 hp
  have hec : t.errcode = 0#4 := by rw [hkeep]; rfl
  have hdres : t.dresWord = s.dresWord := by rw [hkeep]; rfl
  obtain ⟨-, hbad, -, hwhole⟩ := decodeChecksInOrder (accept 4#32 t) rfl
  have h1 : ((accept 4#32 t).fbuf 1).toNat = s.plen.toNat + 1 := hlen
  have hpos : 1 + (s.plen.toNat + 1) = s.plen.toNat + 2 := by omega
  rw [h1, accept_flen] at hbad
  rw [h1, hpos, accept_flen] at hwhole
  by_cases h0 : s.plen.toNat = 0
  · refine ⟨t, _, ht, hec, hbad (by omega) (by omega), by omega, fun _ => ⟨rfl, ?_, hdres⟩⟩
    apply BitVec.eq_of_toNat_eq
    change (((accept 4#32 t).fbuf 1).setWidth 32).toNat = 1
    rw [BitVec.toNat_setWidth, h1, h0]
  · refine ⟨t, _, ht, hec, (hwhole (by omega) (by omega)).2 hpar.symm,
      fun _ => ⟨rfl, htype, hlen, rfl, hpay⟩, by omega⟩

/-! ## ENCSEND (R152) -/

/-- The state in which the SENDSTART of an accepted ENCSEND runs (R152). -/
def encsendEncoded (s : State) : State := encodeFrame { s with txcnt := 0#16 }

theorem exec_encsend_of_tooLong {s : State} (hp : 252 < s.plen.toNat) :
    exec .encsend s = .next (finish .payloadTooLong (zext32 s.plen) { s with txcnt := 0#16 }) :=
  if_pos ((payloadTooLong_iff s).mpr hp)

theorem exec_encsend_of_fits {s : State} (hp : s.plen.toNat ≤ 252) :
    exec .encsend s = sendStart (encsendEncoded s) :=
  if_neg fun h => absurd ((payloadTooLong_iff s).mp h) (by omega)

theorem sendStart_of_chunks {s : State} (he : s.en = true) (h7 : s.flen.toNat % 7 = 0) :
    sendStart s = nextChunk { s with nch := s.flen.toNat / 7, k := 0 } := by
  simp [sendStart, he, h7]

/-- The record of an ENCSEND that ends before its first chunk has only the opcode in it (R242). -/
theorem fields_opcodeWord_encsend {s : State} (hc : s.cmd = 3#32) : fields 0#32 s.opcodeWord 0#32 = 0x300#32 := by
  rw [State.opcodeWord, hc]
  rfl

/-- The size that ENCODE writes is at least one chunk and a whole number of chunks (R93). -/
theorem encodeFrame_flen_chunks {s : State} (hp : s.plen.toNat ≤ 252) :
    (encodeFrame s).flen.toNat % 7 = 0 ∧ 7 ≤ (encodeFrame s).flen.toNat := by
  rw [encodeFrame_flen hp, builtFrame_length]
  exact ⟨roundup7_mod _, (padded_size_bounds hp).1⟩

/-- The state in which the first NEXTCHUNK of an ENCSEND runs (R150, R152). -/
def encsendBegun (s : State) : State :=
  { encsendEncoded s with nch := (encsendEncoded s).flen.toNat / 7, k := 0 }

/-- Settles O49: ENCODE's refusal, or SENDSTART on the frame that ENCODE writes. -/
theorem encsendEncodesThenSends : Obligations.EncsendEncodesThenSends := by
  intro s hc _
  have h5 : s.cmd ≠ 5#32 := by simp [hc]
  refine ⟨fun hp => ?_, fun hp => ⟨_, encsendEncoded s, exec_encode_of_fits hp, rfl, rfl, fun he => ?_, ?_⟩⟩
  · rw [exec_encsend_of_tooLong hp, finish_eq_completed (s := { s with txcnt := 0#16 }) _ h5 (by decide)]
    rfl
  · rw [exec_encsend_of_fits hp, sendStart_of_closed (s := encsendEncoded s) he,
      finish_eq_completed (s := encsendEncoded s) _ h5 (by decide),
      fields_opcodeWord_encsend (s := encsendEncoded s) hc]
    rfl
  · obtain ⟨h7, hpos⟩ := encodeFrame_flen_chunks (s := { s with txcnt := 0#16 }) hp
    have hk : (encsendBegun s).k ≠ (encsendBegun s).nch := by
      simp only [encsendBegun, encsendEncoded]
      omega
    have hbegin (he : s.en = true) : exec .encsend s = nextChunk (encsendBegun s) :=
      (exec_encsend_of_fits hp).trans (sendStart_of_chunks he h7)
    refine ⟨fun he hcan => ?_, fun he hcan => ⟨_, isBlock_txBlock (encsendEncoded s) 0, ?_⟩⟩
    · have hop : fields 0#32 (encsendBegun s).opcodeWord (BitVec.ofNat 32 (encsendBegun s).k) = 0x300#32 :=
        fields_opcodeWord_encsend (s := encsendBegun s) hc
      rw [hbegin he, nextChunk_of_cancel hk hcan, finish_eq_completed (s := encsendBegun s) _ h5 (by decide), hop]
      rfl
    · rw [hbegin he, nextChunk_of_left hk hcan (by simp [encsendBegun])]
      rfl

end Sys2Proof.Machine
end

section
/-! The answer Ok in a send (spec/41_send.md R150). -/

namespace Sys2Proof.Machine

/-- From TXW the answer Ok goes to NEXTCHUNK, whatever the order of the agents. -/
theorem step_of_txAnswers_ok {s : State} {a : TxAck} (h : txAnswers s a) (ha : a.err = false) :
    step s = nextChunk (chunkAnswered s) := by
  have hok : a.answer = .ok := by simp [TxAck.answer, ha]
  rw [step_of_txAnswers h, hok]
  rfl

/-- Settles O47: the three branches of NEXTCHUNK with the answered chunk counted. -/
theorem okAnswerGoesToTheNextChunk : Obligations.OkAnswerGoesToTheNextChunk := by
  intro s a h ha hc _ h37
  have h5 : (chunkAnswered s).cmd ≠ 5#32 := by rcases hc with hc | hc <;> simp [chunkAnswered, hc]
  have hleft (hk : s.k + 1 < s.nch) : (chunkAnswered s).k ≠ (chunkAnswered s).nch := Nat.ne_of_lt hk
  rw [step_of_txAnswers_ok h ha]
  refine ⟨_, sat16_toNat _, fun hk => ?_, fun hk hcan => ?_, fun hk hcan => ?_⟩
  · rw [nextChunk_of_last (s := chunkAnswered s) hk, finish_eq_completed _ h5 (by decide)]
    rfl
  · refine ⟨_, fields_extract 0#8 (s.cmd.extractLsb' 0 8) (BitVec.ofNat 9 (s.k + 1)), ?_⟩
    rw [nextChunk_of_cancel (hleft hk) hcan, finish_eq_completed _ h5 (by decide), zext32_ofNat9 (by omega)]
    rfl
  · refine ⟨txBlock s (s.k + 1), isBlock_txBlock s (s.k + 1), ?_⟩
    have hb : s.k + 1 < 37 := by omega
    rw [nextChunk_of_left (hleft hk) hcan hb]
    rfl

end Sys2Proof.Machine
end

section
/-! The start and the end of a GETFRAMES: its first read, an error of the RX transport, and what stands in every
completion (spec/42_receive.md R171, R172, R178, R185). -/

namespace Sys2Proof.Machine

/-! ## The start of GETFRAMES (R171, R178) -/

/-- The start of GETFRAMES refuses a closed session. -/
theorem exec_getframes_of_closed {s : State} (he : s.en = false) :
    exec .getframes s = .next (finish .notOpen (fields 0#32 5#32 0#32) (getframesStart s)) := by
  simp [exec, execGetframes, finished, he]

/-- With an open session GETFRAMES finds RAB empty and goes to readOne (R179). -/
theorem exec_getframes_of_open {s : State} (he : s.en = true) :
    exec .getframes s = .next (readOne (getframesStart s)) := by
  have hfill : fill (getframesStart s) = readOne (getframesStart s) := fill_of_needsMore (.inl Nat.zero_lt_two)
  simp [exec, execGetframes, he, hfill]

/-- readOne with a cancellation pending (R171). -/
theorem readOne_of_cancel {s : State} (hc : s.cancel = true) :
    readOne s = finish .cancelled (rxInfo 0#32 5#32 s) { s with att := 0 } := if_pos hc

/-- readOne with none pending issues read attempt 1 (R171). -/
theorem readOne_of_noCancel {s : State} (hc : s.cancel = false) :
    readOne s = { s with att := 1, rdcnt := sat16 (s.rdcnt.toNat + 1), rxReq := true, seq := .rxw } :=
  if_neg (by simp [hc])

/-- Settles O51: NotOpen, or readOne on the emptied list, which is cancelled or reads. -/
theorem getframesStartsWithARead : Obligations.GetframesStartsWithARead := by
  intro s hc
  refine ⟨fun he => ?_, fun he hcan => ?_, fun he hcan => ?_⟩
  · rw [exec_getframes_of_closed he, finish_eq_rxFailed (s := getframesStart s) _ hc (by decide) (by decide)]
    rfl
  · have hinfo : rxInfo 0#32 5#32 (getframesStart s) = 0x500#32 :=
      (by decide : fields 0#32 5#32 (zext32 0#9) = 0x500#32)
    rw [exec_getframes_of_open he, readOne_of_cancel (s := getframesStart s) hcan, hinfo,
      finish_eq_rxFailed (s := { getframesStart s with att := 0 }) _ hc (by decide) (by decide)]
    rfl
  · rw [exec_getframes_of_open he, readOne_of_noCancel (s := getframesStart s) hcan]
    rfl

/-! ## The answer Err (R172) -/

/-- A step in which the RX transport answers with an error takes the answer, drops `rx_req` and ends the command. -/
theorem step_of_rxError {s : State} {a : RxAck} (h : rxAnswers s a) (he : a.err = true) :
    step s = .next (finish .transportError (rxInfo (zext32 a.code) 5#32 s) (afterRx s)) := by
  obtain ⟨hm, hx, _, ha⟩ := h
  obtain ⟨rest, hl⟩ := List.head?_eq_some_iff.mp ha
  have herr : a.answer s.params.rb = .err a.code := by simp [RxAck.answer, he]
  have hrest : rest = s.env.rx.tail := by rw [hl]; rfl
  have hmove : rxMove s.scheduled
      = rxAnswered (a.answer s.params.rb) { s.scheduled with env := { s.scheduled.env with rx := rest } } := by
    simp [rxMove, rxAnswer, hl, hx]
  have hstep : step s = rxMove s.scheduled := by rw [step_eq, hm]; rfl
  rw [hstep, hmove, herr, hrest]
  rfl

/-- Settles O53: the step is the completion with TransportError, and nothing looks at the data. -/
theorem rxErrorEndsGetframes : Obligations.RxErrorEndsGetframes := by
  intro s a h he
  have hc : s.cmd = 5#32 := by
    obtain ⟨_, _, hc, _⟩ := h
    exact hc
  refine ⟨_, fields_extract a.code 5#8 s.rxcnt, ?_⟩
  rw [step_of_rxError h he, finish_eq_rxFailed (s := afterRx s) _ hc (by decide) (by decide)]
  rfl

/-! ## Every completion (R178, R185) -/

theorem Leaves.cmd {s t : State} (h : Leaves s t) : t.cmd = s.cmd := by
  cases h with
  | completed hu e info _ => exact hu.cmd
  | goesOn ht => exact ht.cmd

theorem Starts.cmd {s t : State} (h : Starts s t) : t.cmd = s.cmd := by
  rcases h.leaves_cases with h | ⟨_, _, h⟩ | ⟨a, l, p, _, rfl⟩
  · exact h.cmd
  · exact h.cmd
  · rfl

/-- While a command runs, no step but a reset changes CMD (R24, R69). -/
theorem step_cmd_of_busy {s t : State} (hb : s.busy = true) (hr : mover s ≠ .reset) (ht : step s = .next t) :
    t.cmd = s.cmd := by
  suffices h : t.cmd = s.scheduled.cmd from h
  rw [step_eq] at ht
  cases hm : mover s <;> rw [hm] at ht
  case host =>
    obtain ⟨_, _, _, hc, _⟩ := hostMove_waitsOn ht hb
    exact hc
  case sequencer =>
    rcases internalStep_cases ht with ⟨_, hs⟩ | ⟨_, rfl⟩ | ⟨_, rfl⟩
    · exact hs.cmd
    · exact (attempt_leaves _).cmd
    · rfl
  case tx => exact (txMove_leaves ht).cmd
  case rx => exact (rxMove_leaves ht).cmd
  case reset => exact absurd hm hr

/-- Settles O59: the step keeps the invariant and CMD, and the invariant says it of the completed GETFRAMES. -/
theorem getframesCompletionLeavesAllOrNothing : Obligations.GetframesCompletionLeavesAllOrNothing := by
  intro s t hi hb hc hr ht hidle
  have hit : RunInv t := everyStepKeepsTheInvariant s t hi ht
  have hx : t.seq = .idle := hit.seq_idle hidle
  obtain ⟨hok, herr⟩ := hit.result hx ((step_cmd_of_busy hb hr ht).trans hc)
  exact ⟨hit.rab_nil (by simp [hx]) (by simp [hx]), herr, hok⟩

end Sys2Proof.Machine
end

section
/-! The frame at RAB's front once the good frames before it have been moved: what is wrong with it, or that it is the
last one (spec/42_receive.md R180 to R185). -/

namespace Sys2Proof.Machine

/-! ## What FILL does with the frame at RAB's front -/

/-- FILL refuses a declared length below 2 (R180). -/
theorem fill_of_badLength {s : State} (h2 : 2 ≤ s.rab.length) (hl : rabLen s < 2) :
    fill s = finish .invalidDeclaredLength (rxInfo (zext32 (s.rab.getD 1 0#8)) 0#32 s) s := by
  rw [fill_eq, if_neg (Nat.not_lt.mpr h2), if_pos hl]

section Whole
variable {s : State} (hl : 2 ≤ rabLen s) (hw : 2 + rabLen s ≤ s.rab.length)
include hl hw

/-- FILL hands a whole frame to CONSUME, and what CONSUME ends has ended (R179, R181). -/
theorem fill_of_consume_ended {t : State} (hc : consume s = .ended t) : fill s = t := by
  have h2 : ¬ s.rab.length < 2 := by omega
  rw [fill_eq, if_neg h2, if_neg (Nat.not_lt.mpr hl), if_neg (Nat.not_lt.mpr hw), hc]

theorem fill_of_badParity (hp : rabParity s ≠ rabParityByte s) :
    fill s = finish .parityMismatch (rxInfo (zext32 (rabParityByte s)) (zext32 (rabParity s)) s) (dropFrame s) :=
  fill_of_consume_ended hl hw (if_pos hp)

theorem fill_of_overflow (hp : rabParity s = rabParityByte s) (hf : 1024 < s.rxlen.toNat + 2 + rabLen s) :
    fill s = finish .rxOverflow (rxInfo (zext32 s.rxlen) 0#32 s) (dropFrame s) := by
  rcases consume_cases s with ⟨h, _⟩ | ⟨_, _, h⟩ | ⟨_, h, _⟩ | ⟨_, h, _⟩
  · exact absurd hp h
  · exact fill_of_consume_ended hl hw h
  · omega
  · omega

end Whole

/-- FILL ends with OK after a good frame that only zeros or nothing follow (R183, R184). -/
theorem fill_of_lastFrame {s : State} (h : FrameReady s) (hz : allZero (s.rab.drop (2 + rabLen s)) = true) :
    fill s = finish .ok 0#32 (appendFrame s) := by
  have hfits := h.fits
  rcases consume_cases s with ⟨hp, _⟩ | ⟨_, hf, _⟩ | ⟨_, _, _, hc⟩ | ⟨_, _, hn, _⟩
  · exact absurd h.parity hp
  · omega
  · exact fill_of_consume_ended h.long h.whole hc
  · simp [hz] at hn

/-! ## A frame that ends the command -/

section Moved
variable {s u : State} {fs : List (List Byte)} {rest : List Byte} (h : framesMoved s u fs rest)
include h

theorem rab_of_framesMoved : u.rab = rest := (congrArg State.rab h.1 :)

theorem cmd_of_framesMoved : u.cmd = s.cmd := (congrArg State.cmd h.1 :)

end Moved

theorem cmd_of_framesThenRest {s : State} {b rest : List Byte} {fs : List (List Byte)}
    (h : framesThenRest s b fs rest) : s.cmd = 5#32 := by
  obtain ⟨⟨_, _, ⟨_, _, hc, _⟩, _⟩, _⟩ := h
  exact hc

/-- The overflow's record has RXLEN on bits 10:0 (R183, R242). -/
theorem fields_extract_rxlen (lo : BitVec 11) (hi : BitVec 9) :
    (fields (zext32 lo) 0#32 (zext32 hi)).extractLsb' 0 11 = lo
      ∧ (fields (zext32 lo) 0#32 (zext32 hi)).extractLsb' 11 5 = 0#5
      ∧ (fields (zext32 lo) 0#32 (zext32 hi)).extractLsb' 16 9 = hi
      ∧ (fields (zext32 lo) 0#32 (zext32 hi)).extractLsb' 25 7 = 0#7 := by
  refine ⟨?_, ?_, ?_, ?_⟩ <;>
  · apply BitVec.eq_of_getLsbD_eq
    intro i hi
    interval_cases i <;> simp [fields, zext32]

/-- Settles O56: FILL looks at the rest, and each fault of its front frame is a branch of FILL or CONSUME. -/
theorem badFrameEndsGetframes : Obligations.BadFrameEndsGetframes := by
  intro s b fs r l h hl h2
  obtain ⟨u, hu, hstep⟩ := step_of_framesThenRest h
  have hc : u.cmd = 5#32 := (cmd_of_framesMoved hu).trans (cmd_of_framesThenRest h)
  obtain rfl := rab_of_framesMoved hu
  obtain rfl : l = rabLen u := hl
  refine ⟨u, hu, fun hlt => ⟨_, fields_extract (u.rab.getD 1 0#8) 0#8 u.rxcnt, ?_⟩,
    fun hle hw hp => ⟨_, fields_extract (rabParityByte u) (rabParity u) u.rxcnt, ?_⟩, fun hle hw hp hf => ?_⟩
  · rw [hstep, fill_of_badLength h2 hlt, finish_eq_rxFailed _ hc (by decide) (by decide)]
    rfl
  · rw [hstep, fill_of_badParity hle hw hp, finish_eq_rxFailed (s := dropFrame u) _ hc (by decide) (by decide)]
    rfl
  · obtain ⟨h0, h11, h16, h25⟩ := fields_extract_rxlen u.rxlen u.rxcnt
    refine ⟨_, h0, h11, h16, h25, ?_⟩
    rw [hstep, fill_of_overflow hle hw hp hf, finish_eq_rxFailed (s := dropFrame u) _ hc (by decide) (by decide)]
    rfl

end Sys2Proof.Machine
end

section
/-! Good frames that complete a GETFRAMES (spec/42_receive.md R173, R181 to R184). -/

namespace Sys2Proof.Machine

/-! ## A block that arrives (R173) -/

/-- The state in which FILL runs after the outstanding read has been answered with the block `b`. -/
def blockAppended (s : State) (b : List Byte) : State := { afterRx s with rab := s.rab ++ b, first := false }

theorem step_of_dataArrives {s : State} {b : List Byte} (h : dataArrives s b) :
    step s = .next (fill (blockAppended s b)) := by
  obtain ⟨c, d, hrx, hcar, hne⟩ := h
  have hnz : allZero b ≠ true := by simpa [allZero] using hne
  rw [step_of_block hrx rfl, unpackBlock_eq_of_carries hcar, if_neg hnz]
  rfl

theorem rxlen_framesAppended {s : State} {fs : List (List Byte)} (rest : List Byte)
    (h : s.rxlen.toNat + fs.flatten.length ≤ 1024) :
    (framesAppended s fs rest).rxlen.toNat = s.rxlen.toNat + fs.flatten.length := by
  simp only [framesAppended, BitVec.toNat_ofNat]
  omega

/-- The state in which FILL looks at what is left behind the frames `fs`, written out. -/
theorem framesMoved_framesAppended {s : State} {b : List Byte} {fs : List (List Byte)} {rest : List Byte}
    (h : framesThenRest s b fs rest) : framesMoved s (framesAppended (blockAppended s b) fs rest) fs rest := by
  obtain ⟨_, _, _, hq, hz⟩ := h
  refine ⟨rfl, rxlen_framesAppended (s := blockAppended s b) rest hq,
    storesFrame_framesAppended (s := blockAppended s b) fs rest fun hfs => (hz hfs).1, ?_⟩
  rintro rfl
  rfl

theorem step_eq_fill_framesAppended {s : State} {b : List Byte} {fs : List (List Byte)} {rest : List Byte}
    (h : framesThenRest s b fs rest) : step s = .next (fill (framesAppended (blockAppended s b) fs rest)) := by
  obtain ⟨hd, hrab, hv, hq, hz⟩ := h
  have hfill : fill (blockAppended s b) = fill (framesAppended (blockAppended s b) fs rest) :=
    fill_frames hrab hv hq fun hfs => by simpa [allZero] using (hz hfs).2
  rw [step_of_dataArrives hd, hfill]

/-! ## A good frame with an all-zero remainder (R183, R184) -/

/-- CONSUME's append is that of one frame. -/
theorem FrameReady.appendFrame_eq {s : State} (h : FrameReady s) :
    appendFrame s = framesAppended s [rabFrame s] (s.rab.drop (2 + rabLen s)) := by
  simp [appendFrame, framesAppended, State.store, h.length_rabFrame, Nat.add_assoc]

/-- An OK of GETFRAMES empties RAB besides what every completion does (R185, R241). -/
theorem finish_ok_getframes {s : State} (info : Word) (hc : s.cmd = 5#32) :
    finish .ok info s = { completed 0#4 info s with rab := [] } := by
  simp [finish, completed, State.isGetframes, hc, ErrKind.code]

/-- Settles O57: FILL moves the frames, and the one behind them is the last. -/
theorem goodFrameWithZeroRemainderCompletes : Obligations.GoodFrameWithZeroRemainderCompletes := by
  intro s b fs r l h hm hl h2 hw hp hq hz
  have hu := framesMoved_framesAppended h
  have hstep := step_eq_fill_framesAppended h
  have hmu : Memory.wf (framesAppended (blockAppended s b) fs r).mem = true := memory_writeBytes_wf hm
  generalize framesAppended (blockAppended s b) fs r = u at hu hstep hmu
  have hc : u.cmd = 5#32 := (cmd_of_framesMoved hu).trans (cmd_of_framesThenRest h)
  obtain rfl := rab_of_framesMoved hu
  obtain rfl : l = rabLen u := hl
  obtain ⟨_, hlen, _⟩ := id hu
  have hr : FrameReady u := ⟨h2, hw, hp, by omega⟩
  have hlast : fill u = finish .ok 0#32 (appendFrame u) := fill_of_lastFrame hr (by simpa [allZero] using hz)
  have hs : storesFrame u (appendFrame u) (rabFrame u) := by
    rw [hr.appendFrame_eq]
    simpa using storesFrame_framesAppended [rabFrame u] (u.rab.drop (2 + rabLen u)) fun _ => hmu
  refine ⟨u, _, hu, hstep.trans (congrArg _ hlast), ?_, ?_, hs⟩
  · rw [finish_ok_getframes (s := appendFrame u) _ hc]
    rfl
  · rw [finish_ok_getframes (s := appendFrame u) _ hc]
    exact hr.rxlen_appendFrame.trans (Nat.add_assoc ..).symm

/-! ## All the frames of RAB (R181 to R184) -/

/-- Behind other frames come those of `hs`. -/
theorem framesAppended_framesAppended {s : State} {gs : List (List Byte)} (hs : List (List Byte)) (r r' : List Byte)
    (h : s.rxlen.toNat + gs.flatten.length ≤ 1024) :
    framesAppended (framesAppended s gs r) hs r' = framesAppended s (gs ++ hs) r' := by
  have hl := rxlen_framesAppended r h
  simp only [framesAppended] at hl ⊢
  simp only [hl]
  simp only [List.flatten_append, List.length_append, memory_writeBytes_append, Nat.add_assoc,
    BitVec.ofNat_add, BitVec.add_assoc]

/-- A valid frame at RAB's front that fits in RXQ is what CONSUME takes (R181 to R183). -/
theorem frameReady_of_validFrame {s : State} {f q : List Byte} (hr : s.rab = f ++ q) (hf : validFrame f = true)
    (hq : s.rxlen.toNat + f.length ≤ 1024) :
    FrameReady s ∧ rabFrame s = f ∧ s.rab.drop (2 + rabLen s) = q := by
  obtain ⟨h2, hl, hp⟩ := rab_validFrame hr hf
  refine ⟨⟨h2, ?_, hp, by omega⟩, ?_, ?_⟩
  · rw [hr, List.length_append, hl]
    omega
  · rw [rabFrame, hr, ← hl, List.take_left]
  · rw [hr, ← hl, List.drop_left]

/-- The second byte of a valid frame is its declared length, which is at least 2 (R91, R92). -/
theorem validFrame_shape {f : List Byte} (hf : validFrame f = true) :
    ∃ t l p, f = t :: l :: p ∧ 2 ≤ l.toNat ∧ p.length = l.toNat := by
  match f, hf with
  | t :: l :: p, hf =>
    simp only [validFrame, Config.minDeclLen, Bool.and_eq_true, decide_eq_true_eq] at hf
    obtain ⟨⟨h2, hn⟩, _⟩ := hf
    exact ⟨t, l, p, rfl, h2, hn⟩

theorem allZero_of_validFrame {f : List Byte} (hf : validFrame f = true) : allZero f = false := by
  obtain ⟨t, l, p, rfl, h2, _⟩ := validFrame_shape hf
  have hl : l ≠ 0#8 := by
    rintro rfl
    simp at h2
  simp [allZero, hl]

/-- FILL with good frames and then only zeros in RAB takes them all and ends with OK (R181 to R184). -/
theorem fill_of_frames_zeros {s : State} {fs : List (List Byte)} {zs : List Byte} (hr : s.rab = fs.flatten ++ zs)
    (hne : fs ≠ []) (hv : ∀ f ∈ fs, validFrame f = true) (hq : s.rxlen.toNat + fs.flatten.length ≤ 1024)
    (hz : allZero zs = true) : fill s = finish .ok 0#32 (framesAppended s fs zs) := by
  obtain ⟨gs, f, rfl⟩ : ∃ gs f, fs = gs ++ [f] := ⟨_, _, (List.dropLast_append_getLast hne).symm⟩
  have hf : validFrame f = true := hv f (by simp)
  simp only [List.flatten_append, List.flatten_singleton, List.length_append] at hq
  have hfill : fill s = fill (framesAppended s gs (f ++ zs)) :=
    fill_frames (by simpa using hr) (fun g hg => hv g (by simp [hg])) (by omega)
      fun _ => by rw [allZero_append, allZero_of_validFrame hf, Bool.false_and]
  have hl := rxlen_framesAppended (s := s) (fs := gs) (f ++ zs) (by omega)
  obtain ⟨hready, hfr, hd⟩ :=
    frameReady_of_validFrame (s := framesAppended s gs (f ++ zs)) rfl hf (by omega)
  rw [hfill, fill_of_lastFrame hready (by rw [hd, hz]), hready.appendFrame_eq, hfr, hd,
    framesAppended_framesAppended _ _ _ (by omega)]

end Sys2Proof.Machine
end

section
/-! A stream of frames cut into read blocks, as lists (spec/42_receive.md R173, R184, R187). -/

namespace Sys2Proof.Machine

/-! ## The stream and how far it has been read -/

/-- The frames `fs` followed by `z` zeros, cut into the blocks `bs` of `rb` bytes, none all zero, such that no frame but
the last is followed in its own last block by zeros only or by nothing. -/
structure FrameStream (rb : Nat) (fs bs : List (List Byte)) (z : Nat) : Prop where
  valid : ∀ f ∈ fs, validFrame f = true
  size : fs.flatten.length ≤ 1024
  bytes : bs.flatten = fs.flatten ++ List.replicate z 0#8
  padding : z < rb
  blocks : ∀ b ∈ bs, b.length = rb ∧ ∃ x ∈ b, x ≠ 0#8
  goesOn : ∀ gs hs, fs = gs ++ hs → gs ≠ [] → hs ≠ [] →
    ∃ x ∈ (bs.flatten.take (((gs.flatten.length - 1) / rb + 1) * rb)).drop gs.flatten.length, x ≠ 0#8

/-- The blocks `done` hold the frames `gs` and the bytes `r` of the frame `f`, which is not whole yet; the blocks `todo`
and the frames `hs` come after. -/
structure ReadUpTo (fs bs gs : List (List Byte)) (f : List Byte) (hs : List (List Byte)) (r : List Byte)
    (done todo : List (List Byte)) : Prop where
  frames : fs = gs ++ f :: hs
  blocks : bs = done ++ todo
  bytes : done.flatten = gs.flatten ++ r
  short : r.length < f.length

/-- Every position in a joined list lies in one of its parts. -/
theorem exists_part_at {fs : List (List Byte)} {n : Nat} (h : n < fs.flatten.length) :
    ∃ gs f hs, fs = gs ++ f :: hs ∧ gs.flatten.length ≤ n ∧ n < gs.flatten.length + f.length := by
  induction fs generalizing n with
  | nil => simp at h
  | cons f fs ih =>
    by_cases hf : n < f.length
    · exact ⟨[], f, fs, rfl, Nat.zero_le _, by simpa using hf⟩
    · rw [List.flatten_cons, List.length_append] at h
      obtain ⟨gs, g, hs, rfl, h1, h2⟩ := ih (n := n - f.length) (by omega)
      refine ⟨f :: gs, g, hs, rfl, ?_, ?_⟩ <;> rw [List.flatten_cons, List.length_append] <;> omega

theorem length_flatten_of_blocks {bs : List (List Byte)} {rb : Nat} (h : ∀ b ∈ bs, b.length = rb) :
    bs.flatten.length = bs.length * rb := by
  rw [List.length_flatten, List.map_eq_replicate_iff.mpr h, List.sum_replicate_nat]

/-- Of two beginnings of one list the shorter begins the longer. -/
theorem exists_append_of_length_le {xs ys us vs : List Byte} (h : xs ++ us = ys ++ vs) (hl : xs.length ≤ ys.length) :
    ∃ q, ys = xs ++ q := by
  rcases List.append_eq_append_iff.mp h with ⟨q, hq, _⟩ | ⟨q, hq, _⟩
  · exact ⟨q, hq⟩
  · have hq0 : q = [] := by simpa [hq] using hl
    exact ⟨[], by simp [hq, hq0]⟩

/-- A valid frame has at least four bytes (R91). -/
theorem four_mul_length_le {fs : List (List Byte)} (h : ∀ f ∈ fs, validFrame f = true) :
    4 * fs.length ≤ fs.flatten.length := by
  induction fs with
  | nil => simp
  | cons f fs ih =>
    have := ih fun g hg => h g (by simp [hg])
    obtain ⟨t, l, p, rfl, h2, hp⟩ := validFrame_shape (h f (by simp))
    simp only [List.length_cons, List.flatten_cons, List.length_append]
    omega

namespace FrameStream
variable {rb : Nat} {fs bs : List (List Byte)} {z : Nat} (hst : FrameStream rb fs bs z)
include hst

theorem length_flatten {done todo : List (List Byte)} (h : bs = done ++ todo) :
    done.flatten.length = done.length * rb :=
  length_flatten_of_blocks fun b hb => (hst.blocks b (by simp [h, hb])).1

/-- A stream of at most 1024 bytes and less than a block of padding has few blocks. -/
theorem blocks_le : bs.length ≤ 1024 := by
  have hl := congrArg List.length hst.bytes
  rw [hst.length_flatten (List.append_nil bs).symm, List.length_append, List.length_replicate] at hl
  have := hst.size
  have := hst.padding
  by_contra hn
  have : 1025 * rb ≤ bs.length * rb := Nat.mul_le_mul_right rb (by omega)
  omega

/-- A frame that ends in a block, but not the stream, has a byte that is not zero behind it in that block (R184). -/
theorem goesOn_in_block {gs hs done todo : List (List Byte)} {b r : List Byte} (hf : fs = gs ++ hs) (hg : gs ≠ [])
    (hh : hs ≠ []) (hb : bs = done ++ b :: todo) (hr : done.flatten ++ b = gs.flatten ++ r)
    (hlt : done.flatten.length < gs.flatten.length) : allZero r = false := by
  have hd := hst.length_flatten hb
  have hlb : b.length = rb := (hst.blocks b (by simp [hb])).1
  have hle := congrArg List.length hr
  simp only [List.length_append] at hle
  have hpos : 0 < rb := Nat.zero_lt_of_lt hst.padding
  have hblock : (gs.flatten.length - 1) / rb = done.length := by
    refine Nat.div_eq_of_lt_le ?_ ?_
    · omega
    · rw [Nat.succ_mul]
      omega
  have htake : bs.flatten.take ((done.length + 1) * rb) = gs.flatten ++ r := by
    rw [← hr, hb]
    simp only [List.flatten_append, List.flatten_cons, ← List.append_assoc]
    refine List.take_left' ?_
    rw [List.length_append, Nat.succ_mul]
    omega
  have hne := hst.goesOn gs hs hf hg hh
  rw [hblock, htake, List.drop_left] at hne
  simpa [allZero] using hne

end FrameStream

/-! ## The next block -/

namespace ReadUpTo
variable {rb : Nat} {fs bs gs hs done todo : List (List Byte)} {f r : List Byte} {z : Nat}

/-- What has not been stored yet, as bytes. -/
theorem left (h : ReadUpTo fs bs gs f hs r done todo) (hst : FrameStream rb fs bs z) :
    r ++ todo.flatten = (f :: hs).flatten ++ List.replicate z 0#8 := by
  have hb := hst.bytes
  rw [h.blocks, h.frames, List.flatten_append, List.flatten_append, h.bytes, List.append_assoc, List.append_assoc] at hb
  exact List.append_cancel_left hb

/-- What RAB holds is the beginning of the next frame. -/
theorem begins_frame (h : ReadUpTo fs bs gs f hs r done todo) (hst : FrameStream rb fs bs z) : ∃ q, f = r ++ q := by
  have hl := h.left hst
  rw [List.flatten_cons, List.append_assoc] at hl
  exact exists_append_of_length_le hl h.short.le

/-- A block that is not the last completes some frames `gs'`, none or more, and begins the next. -/
theorem next {b b' : List Byte} (h : ReadUpTo fs bs gs f hs r done (b :: b' :: todo)) (hst : FrameStream rb fs bs z) :
    ∃ gs' f' hs' r', r ++ b = gs'.flatten ++ r' ∧ (gs' ≠ [] → allZero r' = false)
      ∧ ReadUpTo fs bs (gs ++ gs') f' hs' r' (done ++ [b]) (b' :: todo) := by
  have hleft := h.left hst
  have hb' : b'.length = rb := (hst.blocks b' (by simp [h.blocks])).1
  have hlt : (r ++ b).length < (f :: hs).flatten.length := by
    have := congrArg List.length hleft
    have := hst.padding
    simp only [List.flatten_cons, List.length_append, List.length_replicate] at *
    omega
  obtain ⟨gs', f', hs', hsplit, hle, hlt'⟩ := exists_part_at hlt
  rw [hsplit, List.flatten_append, List.flatten_cons, ← List.append_assoc, List.append_assoc gs'.flatten] at hleft
  obtain ⟨r', hr'⟩ := exists_append_of_length_le hleft.symm hle
  have hframes : fs = (gs ++ gs') ++ f' :: hs' := by rw [h.frames, hsplit, List.append_assoc]
  have hbytes : done.flatten ++ b = (gs ++ gs').flatten ++ r' := by
    rw [h.bytes, List.append_assoc, hr', List.flatten_append, List.append_assoc]
  refine ⟨gs', f', hs', r', hr', fun hne => ?_, hframes, ?_, ?_, ?_⟩
  · refine hst.goesOn_in_block hframes (by simp [hne]) (by simp) h.blocks hbytes ?_
    obtain ⟨g, gs'', rfl⟩ := List.exists_cons_of_ne_nil hne
    have hg : f = g := (List.cons.inj hsplit).1
    have := h.short
    simp only [h.bytes, List.flatten_append, List.flatten_cons, List.length_append, ← hg]
    omega
  · simp [h.blocks]
  · simpa using hbytes
  · rw [hr', List.length_append] at hlt'
    omega

end ReadUpTo

end Sys2Proof.Machine
end

section
/-! A whole GETFRAMES whose blocks carry a stream of frames gives those frames back (spec/42_receive.md R173 to
R187). -/

namespace Sys2Proof.Machine

/-! ## The state of the reassembly -/

/-- In `u`, a state of the GETFRAMES that began in `s`, `n` reads have been issued, the frames `gs` have gone to RXQ,
RAB holds `r`, and the answers `acks` are still to come. No cancellation is pending. -/
structure Reassembling (s u : State) (n : Nat) (gs : List (List Byte)) (r : List Byte) (acks : List RxAck) : Prop where
  params : u.params = s.params
  cmd : u.cmd = 5#32
  cancel : u.cancel = false
  env : u.env = { s.env with rx := acks }
  mem : u.mem = Memory.writeBytes s.mem rxqBase gs.flatten
  rab : u.rab = r
  rxlen : u.rxlen.toNat = gs.flatten.length
  rxcnt : u.rxcnt = BitVec.ofNat 9 gs.length
  rdcnt : u.rdcnt.toNat = n

/-- The state that readOne leaves when no cancellation is pending (R171). -/
def readIssued (s : State) : State :=
  { s with att := 1, rdcnt := sat16 (s.rdcnt.toNat + 1), rxReq := true, seq := .rxw }

namespace Reassembling
variable {s u : State} {n : Nat} {gs : List (List Byte)} {r : List Byte} {acks : List RxAck}

theorem readIssued (h : Reassembling s u n gs r acks) (hn : n < 65535) :
    Reassembling s (readIssued u) (n + 1) gs r acks :=
  { h with
    rdcnt := by
      rw [Machine.readIssued, sat16_toNat, h.rdcnt]
      omega }

theorem blockAppended {a : RxAck} (h : Reassembling s u n gs r (a :: acks)) (hsched : s.env.sched = [])
    (b : List Byte) : Reassembling s (blockAppended u b) n gs (r ++ b) acks :=
  { h with
    env := by simp [Machine.blockAppended, afterRx, h.env, hsched]
    rab := by simp [Machine.blockAppended, h.rab] }

theorem framesAppended {hs : List (List Byte)} {r' : List Byte}
    (h : Reassembling s u n gs (hs.flatten ++ r') acks) (hq : gs.flatten.length + hs.flatten.length ≤ 1024) :
    Reassembling s (framesAppended u hs r') n (gs ++ hs) r' acks :=
  { h with
    mem := by
      simp only [Machine.framesAppended, h.mem, h.rxlen]
      rw [List.flatten_append, memory_writeBytes_append]
    rab := rfl
    rxlen := by
      rw [rxlen_framesAppended _ (by rw [h.rxlen]; exact hq), h.rxlen, List.flatten_append, List.length_append]
    rxcnt := by simp only [Machine.framesAppended, h.rxcnt, List.length_append, BitVec.ofNat_add] }

/-- In the default order the RX transport moves when a read is outstanding and an answer is coming (log entry 4). -/
theorem step_of_block {a : RxAck} {b : List Byte} (h : Reassembling s u n gs r (a :: acks)) (hsched : s.env.sched = [])
    (hx : u.seq = .rxw) (he : a.err = false) (hc : carries s.params.rb a.data b) (hb : ∃ x ∈ b, x ≠ 0#8) :
    step u = .next (fill (Machine.blockAppended u b)) := by
  have hsched' : u.env.sched = [] := by rw [h.env, hsched]
  have hrx : u.env.rx = a :: acks := by rw [h.env]
  have hm : mover u = .rx := by simp [mover_default hsched', nextAgent, hx, hrx]
  refine step_of_dataArrives ⟨a.code, a.data, ⟨hm, hx, h.cmd, ?_⟩, h.params ▸ hc, hb⟩
  rw [hrx, ← he]
  rfl

end Reassembling

/-- FILL takes the good frames at RAB's front and issues a read when the next frame is not whole yet (R179 to R184). -/
theorem fill_of_frames_begun {s : State} {fs : List (List Byte)} {f r : List Byte} (hr : s.rab = fs.flatten ++ r)
    (hv : ∀ g ∈ fs, validFrame g = true) (hq : s.rxlen.toNat + fs.flatten.length ≤ 1024)
    (hz : fs ≠ [] → allZero r = false) (hf : validFrame f = true) (hp : ∃ q, f = r ++ q)
    (hlt : r.length < f.length) (hc : s.cancel = false) : fill s = readIssued (framesAppended s fs r) := by
  have hmore : needsMore (framesAppended s fs r) := by
    obtain ⟨q, rfl⟩ := hp
    obtain ⟨t, l, p, hshape, h2, hlen⟩ := validFrame_shape hf
    rw [hshape] at hlt
    match r, hshape with
    | [], _ => exact .inl (by simp [framesAppended])
    | [_], _ => exact .inl (by simp [framesAppended])
    | x :: y :: r, hshape =>
      have hy : y = l := (List.cons.inj (List.cons.inj hshape).2).1
      refine .inr ⟨by simpa [rabLen, framesAppended, hy] using h2, ?_⟩
      simp only [List.length_cons, hlen] at hlt
      simp only [rabLen, framesAppended, hy, List.length_cons, List.getD_cons_succ, List.getD_cons_zero]
      omega
  rw [fill_frames hr hv hq hz, fill_of_needsMore hmore]
  exact readOne_of_noCancel hc

/-! ## The blocks one by one -/

section Blocks
variable {s u : State} {fs bs gs hs done todo : List (List Byte)} {z : Nat} {b f r : List Byte} {a : RxAck}
  {acks : List RxAck} (hst : FrameStream s.params.rb fs bs z) (hsched : s.env.sched = [])
  (hu : Reassembling s u (done.length + 1) gs r (a :: acks)) (hx : u.seq = .rxw) (he : a.err = false)
  (hcar : carries s.params.rb a.data b)
include hst hsched hu hx he hcar

/-- A block that is not the last moves the frames that it completes to RXQ, and the next read is issued. -/
theorem step_of_next_block {b' : List Byte} (hrd : ReadUpTo fs bs gs f hs r done (b :: b' :: todo)) :
    ∃ v gs' f' hs' r', step u = .next v ∧ v.seq = .rxw
      ∧ Reassembling s v ((done ++ [b]).length + 1) (gs ++ gs') r' acks
      ∧ ReadUpTo fs bs (gs ++ gs') f' hs' r' (done ++ [b]) (b' :: todo) := by
  obtain ⟨_, hb⟩ := hst.blocks b (by simp [hrd.blocks])
  obtain ⟨gs', f', hs', r', hr', hz, hnext⟩ := hrd.next hst
  have hv := hst.valid
  have hq := hst.size
  rw [hnext.frames] at hv hq
  simp only [List.flatten_append, List.length_append] at hq
  have hw := hu.blockAppended hsched b
  rw [hr'] at hw
  have hfill : fill (blockAppended u b) = readIssued (framesAppended (blockAppended u b) gs' r') :=
    fill_of_frames_begun hw.rab (fun g hg => hv g (by simp [hg])) (by rw [hw.rxlen]; omega) hz
      (hv f' (by simp)) (hnext.begins_frame hst) hnext.short hw.cancel
  have hle : done.length + 1 < 65535 := by
    have := hst.blocks_le
    simp only [hrd.blocks, List.length_append, List.length_cons] at this
    omega
  have hdone : (done ++ [b]).length = done.length + 1 := List.length_append
  rw [hdone]
  exact ⟨_, gs', f', hs', r', (hu.step_of_block hsched hx he hcar hb).trans (congrArg _ hfill), rfl,
    (hw.framesAppended (by omega)).readIssued hle, hnext⟩

/-- The last block completes the command with all frames in RXQ. -/
theorem step_of_last_block (hrd : ReadUpTo fs bs gs f hs r done [b]) :
    ∃ v, step u = .next (finish .ok 0#32 v) ∧ Reassembling s v bs.length fs (List.replicate z 0#8) acks := by
  obtain ⟨_, hb⟩ := hst.blocks b (by simp [hrd.blocks])
  have hleft : r ++ b = (f :: hs).flatten ++ List.replicate z 0#8 := by simpa using hrd.left hst
  have hv := hst.valid
  have hq := hst.size
  rw [hrd.frames] at hv hq
  rw [List.flatten_append, List.length_append] at hq
  have hw := hu.blockAppended hsched b
  rw [hleft] at hw
  have hfill : fill (blockAppended u b)
      = finish .ok 0#32 (framesAppended (blockAppended u b) (f :: hs) (List.replicate z 0#8)) :=
    fill_of_frames_zeros hw.rab (by simp) (fun g hg => hv g (List.mem_append_right _ hg))
      (by rw [hw.rxlen]; exact hq) (by simp [allZero])
  have hn : bs.length = done.length + 1 := by simp [hrd.blocks]
  rw [hn, hrd.frames]
  exact ⟨_, (hu.step_of_block hsched hx he hcar hb).trans (congrArg _ hfill), hw.framesAppended hq⟩

end Blocks

/-- A read is outstanding and the blocks `b :: todo` of the stream are coming: a step for each block, and the command
has completed with OK, with all frames in RXQ. -/
theorem run_reassembling {s : State} {fs bs : List (List Byte)} {z : Nat} (hst : FrameStream s.params.rb fs bs z)
    (hsched : s.env.sched = []) {todo : List (List Byte)} {u : State} {b : List Byte} {gs done hs : List (List Byte)}
    {f r : List Byte} {acks rest : List RxAck} (hrd : ReadUpTo fs bs gs f hs r done (b :: todo))
    (hu : Reassembling s u (done.length + 1) gs r (acks ++ rest)) (hx : u.seq = .rxw)
    (ha : List.Forall₂ (fun a b => a.err = false ∧ carries s.params.rb a.data b) acks (b :: todo)) :
    ∃ v, Reassembling s v bs.length fs (List.replicate z 0#8) rest
      ∧ Host.Core.run core (todo.length + 1) u = .next (finish .ok 0#32 v) := by
  induction todo generalizing u b gs done hs f r acks with
  | nil =>
    obtain ⟨a, acks, ⟨he, hcar⟩, hnil, rfl⟩ := List.forall₂_cons_right_iff.mp ha
    obtain rfl := List.forall₂_nil_right_iff.mp hnil
    obtain ⟨v, hstep, hv⟩ := step_of_last_block hst hsched hu hx he hcar hrd
    exact ⟨v, hv, core_run_succ hstep 0⟩
  | cons b' todo ih =>
    obtain ⟨a, acks, ⟨he, hcar⟩, hacks, rfl⟩ := List.forall₂_cons_right_iff.mp ha
    obtain ⟨v, gs', f', hs', r', hstep, hxv, hv, hnext⟩ := step_of_next_block hst hsched hu hx he hcar hrd
    obtain ⟨w, hw, hrun⟩ := ih hnext hv hxv hacks
    exact ⟨w, hw, (core_run_succ hstep _).trans hrun⟩

/-! ## The whole GETFRAMES -/

/-- The first read is outstanding after the step from EXEC (R178, R179). -/
theorem step_getframes {s : State} (hsched : s.env.sched = []) (hx : s.seq = .exec) (hc : s.cmd = 5#32)
    (he : s.en = true) (hcan : s.cancel = false) : step s = .next (readIssued (getframesStart s)) := by
  have hget : startCommand s = exec .getframes s := startCommand_of_decodeCmd (by rw [hc]; rfl)
  rw [step_of_exec hsched hx, hget, exec_getframes_of_open he]
  exact congrArg _ (readOne_of_noCancel (s := getframesStart s) hcan)

theorem reassembling_getframesStart {s : State} (hc : s.cmd = 5#32) (hcan : s.cancel = false) :
    Reassembling s (getframesStart s) 0 [] [] s.env.rx :=
  ⟨rfl, hc, hcan, rfl, rfl, rfl, rfl, rfl, rfl⟩

/-- A completion with OK keeps the result list (R185). -/
theorem finish_ok_results (info : Word) (s : State) :
    (finish .ok info s).rxlen = s.rxlen ∧ (finish .ok info s).rxcnt = s.rxcnt := by simp

/-- Nothing of a stream has been read at first. -/
theorem FrameStream.readUpTo_nil {rb : Nat} {fs bs : List (List Byte)} {z : Nat} (hst : FrameStream rb fs bs z)
    (hne : fs ≠ []) : ∃ b todo f hs, bs = b :: todo ∧ ReadUpTo fs bs [] f hs [] [] (b :: todo) := by
  obtain ⟨f, hs, rfl⟩ := List.exists_cons_of_ne_nil hne
  obtain ⟨t, l, p, rfl, _⟩ := validFrame_shape (hst.valid f (by simp))
  match bs, hst.bytes with
  | [], h => simp at h
  | b :: todo, _ => exact ⟨b, todo, _, hs, rfl, rfl, rfl, rfl, by simp⟩

/-- Settles O58: the step from EXEC issues the first read, and then the blocks are reassembled one by one. -/
theorem getframesGivesBackTheFramesOfTheStream : Obligations.GetframesGivesBackTheFramesOfTheStream := by
  intro s fs bs z acks rest hx hc he hcan hsched hm _ hne hv hq hbytes hz hb hgo ha hrx
  have hst : FrameStream s.params.rb fs bs z := ⟨hv, hq, hbytes, hz, hb, hgo⟩
  obtain ⟨b, todo, f, hs, hbs, hrd⟩ := hst.readUpTo_nil hne
  have hu := (reassembling_getframesStart hc hcan).readIssued (by decide)
  rw [hrx] at hu
  obtain ⟨v, hw, hrun⟩ := run_reassembling hst hsched hrd hu rfl (hbs ▸ ha)
  obtain ⟨hrxlen, hrxcnt⟩ := finish_ok_results 0#32 v
  refine ⟨finish .ok 0#32 v, ?_, rfl, rfl, rfl, rfl, ?_, hrxlen ▸ hw.rxlen, ?_, hw.rdcnt, congrArg Env.rx hw.env⟩
  · rw [hbs, List.length_cons, Nat.add_comm 1]
    exact (core_run_succ (step_getframes hsched hx hc he hcan) _).trans hrun
  · have h4 := four_mul_length_le hv
    rw [hrxcnt, hw.rxcnt, BitVec.toNat_ofNat]
    omega
  · rw [State.rxqBytes, finish_mem, hrxlen, hw.rxlen, hw.mem]
    exact memory_readBytes_writeBytes _ _ hm

end Sys2Proof.Machine
end

section
/-! The buffer windows byte by byte: a write stores four bytes and a read answers them, low byte first
(spec/20_memory.md R65, spec/43_control.md R230 to R234). -/

namespace Sys2Proof.Machine

/-! ## The bytes of a window word (R65) -/

/-- Byte j of a stored word is on bits 8j+7 : 8j. -/
theorem wordBytes_getElem (d : Word) {j : Nat} (h : j < (wordBytes d).length) :
    (wordBytes d)[j] = d.extractLsb' (8 * j) 8 :=
  match j, h with
  | 0, _ => rfl
  | 1, _ => rfl
  | 2, _ => rfl
  | 3, _ => rfl

/-- Bits 8j+7 : 8j of the window word at `a` are the buffer byte at `a + j`. -/
theorem windowWord_extract (s : State) (a : Nat) {j : Nat} (h : j < 4) :
    (s.windowWord a).extractLsb' (8 * j) 8 = Memory.read s.mem (a + j) := by
  obtain ⟨h0, h1, h2, h3⟩ := wordOf_extract (Memory.read s.mem a) (Memory.read s.mem (a + 1))
    (Memory.read s.mem (a + 2)) (Memory.read s.mem (a + 3))
  match j, h with
  | 0, _ => exact h0
  | 1, _ => exact h1
  | 2, _ => exact h2
  | 3, _ => exact h3

/-! ## Accesses to a window while idle

The window is at `base` and its word at offset `n`, so byte j of the word is the window's byte `n + j`. -/

/-- A window write changes the four bytes of its word and nothing else. -/
theorem windowWrite_stores {s : State} (hb : s.busy = false) (hm : Memory.wf s.mem = true) (base n : Nat) (d : Word) :
    ∃ t, windowWrite (base + n) d s = .next t ∧ t = { s with mem := t.mem, resp := .ok }
      ∧ (∀ j < 4, Memory.read t.mem (base + (n + j)) = d.extractLsb' (8 * j) 8)
      ∧ ∀ a, a < base + n ∨ base + n + 4 ≤ a → Memory.read t.mem a = Memory.read s.mem a := by
  refine ⟨_, windowWrite_idle hb _ d, rfl, fun j hj => ?_, fun a ha => memory_read_writeBytes_outside _ _ ha⟩
  have hl : j < (wordBytes d).length := hj
  rw [← Nat.add_assoc, ← wordBytes_getElem d hl]
  exact memory_read_writeBytes_inside hm j hl

/-- A window read answers the four bytes of its word and changes nothing else. -/
theorem windowRead_returns {s : State} (hb : s.busy = false) (base n : Nat) :
    ∃ d : Word, windowRead (base + n) s = .next { s with resp := .data d }
      ∧ ∀ j < 4, d.extractLsb' (8 * j) 8 = Memory.read s.mem (base + (n + j)) := by
  refine ⟨_, windowRead_idle hb _, fun j hj => ?_⟩
  rw [windowWord_extract s _ hj, Nat.add_assoc]

/-! ## FBUF words with an encoding (R97) -/

theorem exec_wrFbuf_of_le {i : BitVec 7} (hi : i.toNat ≤ 64) (d : Word) (s : State) :
    exec (.wrFbuf i d) s = windowWrite (fbufBase + 4 * i.toNat) d s := if_pos hi

theorem exec_rdFbuf_of_le {i : BitVec 7} (hi : i.toNat ≤ 64) (s : State) :
    exec (.rdFbuf i) s = windowRead (fbufBase + 4 * i.toNat) s := if_pos hi

/-! ## The obligations -/

/-- Settles O36: WR_PBUF is a gated window write at PBUF's base. -/
theorem pbufWriteStoresFourBytes : Obligations.PbufWriteStoresFourBytes := fun _ i d =>
  ⟨fun hb hm => windowWrite_stores hb hm pbufBase (4 * i.toNat) d, fun hb => whenIdle_busy hb⟩

/-- Settles O37: WR_FBUF is a gated window write at FBUF's base, for every word index that has an encoding. -/
theorem fbufWriteStoresFourBytes : Obligations.FbufWriteStoresFourBytes := by
  intro s i d hi
  rw [exec_wrFbuf_of_le hi]
  exact ⟨fun hb hm => windowWrite_stores hb hm fbufBase (4 * i.toNat) d, fun hb => whenIdle_busy hb⟩

/-- Settles O38: each read is a gated window read at its window's base. -/
theorem windowReadsReturnFourBytes : Obligations.WindowReadsReturnFourBytes := by
  refine ⟨fun s i => ?pbuf, fun s i hi => ?fbuf, fun s i => ?rxq⟩
  case pbuf => exact ⟨fun hb => windowRead_returns hb pbufBase (4 * i.toNat), fun hb => whenIdle_busy hb⟩
  case fbuf =>
    rw [exec_rdFbuf_of_le hi]
    exact ⟨fun hb => windowRead_returns hb fbufBase (4 * i.toNat), fun hb => whenIdle_busy hb⟩
  case rxq => exact ⟨fun hb => windowRead_returns hb rxqBase (4 * i.toNat), fun hb => whenIdle_busy hb⟩

end Sys2Proof.Machine
end

section
/-! NOP and the illegal command word (spec/43_control.md R210, R211), and the writes of the control registers and of
FLEN (R212, R214, R216, R224) and to the read-only locations (R235). -/

namespace Sys2Proof.Machine

/-! ## Commands that only complete -/

/-- Settles O41: the completion of a command that is not GETFRAMES. -/
theorem nopOnlyCompletes : Obligations.NopOnlyCompletes := by
  intro s hc
  have h5 : s.cmd ≠ 5#32 := by simp [hc]
  exact congrArg Host.Outcome.next (finish_eq_completed 0#32 h5 (by decide))

/-- The opcode map ends at 5 (R96). -/
theorem toNat_le_five_of_decodeCmd {w : Word} {i : Instr} (h : decodeCmd w = .ok i) : w.toNat ≤ 5 := by
  have hi := encode_of_decodeCmd h
  cases i <;> cases hi <;> decide

/-- A word above 5 starts the completion with IllegalCommand (R98, R211). -/
theorem startCommand_of_unlisted {s : State} (h : 5 < s.cmd.toNat) :
    startCommand s = .next (finish .illegalCommand s.cmd s) := by
  unfold startCommand
  split
  · next hd => exact absurd (toNat_le_five_of_decodeCmd hd) (by omega)
  · rfl

/-- Settles O9: the sequencer's step starts the word in CMD, which the opcode map does not list. -/
theorem illegalCommandWordOnlyCompletes : Obligations.IllegalCommandWordOnlyCompletes := by
  intro s hm hx hw
  have h5 : (afterSeq s).cmd ≠ 5#32 := by
    intro h
    rw [show s.cmd = 5#32 from h] at hw
    exact absurd hw (by decide)
  rw [step_of_sequencer_exec hm hx, startCommand_of_unlisted (s := afterSeq s) hw, finish_eq_completed _ h5 (by decide)]
  rfl

/-! ## Writes of the control registers -/

/-- Settles O31: what the write stores, with BUSY known. -/
theorem ctrlWriteIdleAndBusy : Obligations.CtrlWriteIdleAndBusy := by
  intro s d
  refine ⟨fun hb => ?idle, fun hb => ?busy, fun t ht => ?irq⟩
  case idle => simp [exec, execWrCtrl, busWritten, State.respond, legalMaxatt, hb]
  case busy => simp [exec, execWrCtrl, busWritten, State.respond, hb, Bool.or_comm]
  case irq =>
    injection ht with ht
    exact ht ▸ rfl

/-- Settles O32: bit 1 is 0 and DONE stays, or it is 1 and DONE, and `irq` with it, goes to 0. -/
theorem statusWriteClearsDone : Obligations.StatusWriteClearsDone := by
  intro s d
  refine ⟨_, rfl, ?_, fun hd => ?_⟩
  · simp [State.respond, Bool.and_comm]
  · simp [State.irq, hd]

theorem exec_wrCmd_idle {s : State} (hb : s.busy = false) (w : Word) :
    exec (.wrCmd w) s = .next ((accept w s).respond .ok) := whenIdle_idle hb

/-- Settles O33: acceptance while idle, which clears DONE and so lowers `irq`; the gate while busy. -/
theorem cmdWriteAcceptsWhenIdle : Obligations.CmdWriteAcceptsWhenIdle := fun _ w =>
  ⟨fun hb => ⟨_, exec_wrCmd_idle hb w, rfl, Bool.and_false _⟩, fun hb => whenIdle_busy hb⟩

/-! ## WR_FLEN (R224) -/

theorem exec_wrFlen_idle {s : State} (hb : s.busy = false) {d : Word} (h : d.toNat ≤ 260) :
    exec (.wrFlen d) s = .next (State.respond { s with flen := d.extractLsb' 0 9 } .ok) :=
  (whenIdle_idle hb).trans (if_pos h)

theorem exec_wrFlen_tooLarge (s : State) {d : Word} (h : 260 < d.toNat) :
    exec (.wrFlen d) s = .next (s.respond .err) := by
  have hr : exec (.wrFlen d) s = whenIdle s (busError s) := congrArg (whenIdle s) (if_neg (by simpa using h))
  rw [hr, whenIdle]
  split <;> rfl

/-- Settles O35: the nine bits that FLEN takes hold every value up to 260. -/
theorem flenWriteStoresUpTo260 : Obligations.FlenWriteStoresUpTo260 := by
  refine fun s d => ⟨fun hb hd => ⟨_, exec_wrFlen_idle hb hd, rfl, ?_⟩, ?_⟩
  · simp only [respond_flen, BitVec.extractLsb'_toNat, Nat.shiftRight_zero]
    omega
  · rintro (hb | hd)
    · exact whenIdle_busy hb
    · exact exec_wrFlen_tooLarge s hd

/-! ## Read-only locations (R235) -/

/-- Settles O40: the six registers and the RXQ window decode to WR_RO, whose effect is the bus error. -/
theorem readOnlyWriteIsABusError : Obligations.ReadOnlyWriteIsABusError := by
  refine ⟨fun a d ha => ?_, fun s a d => rfl⟩
  rw [decodeBus_busOf_write]
  rcases ha with ha | ⟨hq, ha⟩
  · exact decodeWrite_readOnlyRegister d (List.mem_map_of_mem (f := BitVec.toNat) ha)
  · exact decodeWrite_rxq d ((aligned_iff a).mpr ha) hq

end Sys2Proof.Machine
end

section
/-! The words that the register reads answer, field by field (spec/43_control.md R213 to R229). -/

namespace Sys2Proof.Machine

/-! ## A field of a register word

A register word is the OR of its fields, each a value shifted to its place. -/

/-- The bits of a field at its own place are the field. -/
theorem extract_zext32_shift_same {n : Nat} (v : BitVec n) {k : Nat} (h : k + n ≤ 32) :
    (zext32 v <<< k).extractLsb' k n = v := by
  apply BitVec.eq_of_getLsbD_eq
  intro i hi
  have hk : k + i < 32 := by omega
  simp [zext32, hi, hk]

/-- Beside its place a field has no bits. -/
theorem extract_zext32_shift_beside {n : Nat} (v : BitVec n) {k i m : Nat} (h : k + n ≤ i ∨ i + m ≤ k) :
    (zext32 v <<< k).extractLsb' i m = 0#m := by
  apply BitVec.eq_of_getLsbD_eq
  intro j hj
  rcases h with h | h
  · have hv : v.getLsbD (i + j - k) = false := BitVec.getLsbD_of_ge _ _ (by omega)
    simp [zext32, hv]
  · have hk : i + j < k := by omega
    simp [zext32, hk]

theorem extract_zext32_same {n : Nat} (v : BitVec n) (h : n ≤ 32) : (zext32 v).extractLsb' 0 n = v := by
  simpa using extract_zext32_shift_same v (k := 0) (by omega)

theorem extract_zext32_above {n : Nat} (v : BitVec n) {i m : Nat} (h : n ≤ i) : (zext32 v).extractLsb' i m = 0#m := by
  simpa using extract_zext32_shift_beside v (k := 0) (i := i) (m := m) (by omega)

/-! ## CTRL and STATUS (R215, R217) -/

/-- Settles O26: the fields of CTRL lie beside one another. -/
theorem ctrlReadReturnsItsFields : Obligations.CtrlReadReturnsItsFields := by
  intro s
  refine ⟨s.ctrlWord, rfl, ?en, ?ie, ?cancel, ?_, ?_, ?_⟩
  case en | ie | cancel => simp [State.ctrlWord, flagWord, zext32]
  all_goals simp [State.ctrlWord, flagWord, BitVec.extractLsb'_or, extract_zext32_shift_same,
    extract_zext32_shift_beside, extract_zext32_above]

/-- Settles O27: the fields of STATUS lie beside one another. -/
theorem statusReadReturnsItsFields : Obligations.StatusReadReturnsItsFields := by
  intro s
  refine ⟨s.statusWord, rfl, statusWord_getLsbD_zero s, ?done, ?toEmpty, ?err, ?_, ?_, ?_⟩
  case done | toEmpty => simp [State.statusWord, flagWord, zext32]
  case err => simp [State.statusWord, flagWord, zext32, State.errFlag]
  all_goals simp [State.statusWord, flagWord, BitVec.extractLsb'_or, extract_zext32_shift_same,
    extract_zext32_shift_beside, extract_zext32_above]

/-! ## CMD, ERRINFO and CNT (R213, R218, R229) -/

theorem cntWord_extract (s : State) :
    s.cntWord.extractLsb' 0 16 = s.rdcnt ∧ s.cntWord.extractLsb' 16 16 = s.txcnt := by
  constructor <;>
    simp [State.cntWord, BitVec.extractLsb'_or, extract_zext32_same, extract_zext32_above, extract_zext32_shift_same,
      extract_zext32_shift_beside]

/-- Settles O28: the reads answer the registers, and acceptance has set CMD and cleared ERRINFO. -/
theorem cmdErrinfoAndCntReads : Obligations.CmdErrinfoAndCntReads := by
  refine ⟨fun s => ⟨rfl, rfl, s.cntWord, rfl, cntWord_extract s⟩, fun s w t hb ht => ?_⟩
  rw [exec_wrCmd_idle hb] at ht
  injection ht with ht
  exact ht ▸ ⟨rfl, rfl⟩

/-! ## Operand and result registers (R221 to R228) -/

/-- DRES is a word of three bytes below a zero byte (R30). -/
theorem dresWord_eq_wordOf (s : State) : s.dresWord = wordOf s.dtype s.dlen s.dpar 0#8 := by
  simp [State.dresWord, fields, wordOf, zext32]

/-- A gated read is accepted while idle. -/
theorem whenIdle_busRead_idle {s : State} (hb : s.busy = false) (d : Word) :
    whenIdle s (busRead d s) = .next { s with resp := .data d } := whenIdle_idle hb

/-- Settles O30: each read is gated, and DRES is its three bytes. -/
theorem operandAndResultRegisterReads : Obligations.OperandAndResultRegisterReads := by
  refine ⟨fun s hb => ?idle, fun s hb i hi => ?busy⟩
  case idle =>
    have hread := whenIdle_busRead_idle hb
    refine ⟨hread _, hread _, hread _, hread _, hread _, s.dresWord, hread _, ?_⟩
    rw [dresWord_eq_wordOf]
    exact wordOf_extract _ _ _ _
  case busy =>
    simp only [List.mem_cons, List.not_mem_nil, or_false] at hi
    rcases hi with rfl | rfl | rfl | rfl | rfl | rfl <;> exact whenIdle_busy hb

end Sys2Proof.Machine
end

section
/-! Reset: the step of a reset event, and the reset state against the invariants (spec/70_reset_and_hazards.md R280,
R281). -/

namespace Sys2Proof.Machine

/-- A reset event resets the machine that remains when its schedule entry is taken off. -/
theorem step_of_reset {s : State} (hm : mover s = .reset) : step s = .next (hardReset s.scheduled) := by
  rw [step_eq, hm]
  rfl

/-! ## The words and buffers of the reset state -/

theorem reset_ctrlWord : State.reset.ctrlWord = 0x00001000#32 := by decide

theorem reset_statusWord : State.reset.statusWord = 0#32 := by decide

theorem reset_dresWord : State.reset.dresWord = 0#32 := by decide

theorem reset_cntWord : State.reset.cntWord = 0#32 := by decide

/-- The reset memory lists no byte, so every buffer byte reads as an unlisted one. -/
theorem hardReset_mem_read (s : State) (a : Nat) : Memory.read (hardReset s).mem a = 0#8 := memory_read_nil a

/-- Settles O11: the words and the buffers are those of the reset state, PARAM is made of the parameters, which a reset
keeps, and every other field is reset by definition. -/
theorem resetEventGivesEveryResetValue : Obligations.ResetEventGivesEveryResetValue := by
  intro s hm
  refine ⟨_, step_of_reset hm, rfl, rfl, rfl, rfl, ?ctrl, rfl, rfl, rfl, rfl, ?status, rfl, rfl, ?param, rfl, rfl, rfl,
    ?dres, rfl, rfl, ?cnt, ?pbuf, ?fbuf, ?rxq, rfl, rfl, rfl, rfl, rfl, rfl, rfl, rfl, rfl⟩
  case ctrl => exact reset_ctrlWord
  case status => exact reset_statusWord
  case param => rfl
  case dres => exact reset_dresWord
  case cnt => exact reset_cntWord
  case pbuf | fbuf | rxq => exact fun _ _ => hardReset_mem_read _ _

/-! ## The invariants in the reset state -/

/-- A reset establishes the invariant from any state with legal parameters: SEQ is IDLE, so no transaction is
outstanding, and CMD is no GETFRAMES. -/
theorem runInv_hardReset_of_legal {s : State} (hp : s.params.Legal) : RunInv (hardReset s) := by
  have hctrl : CtrlLegal State.reset := by decide
  have hstatus : StatusLegal State.reset := by decide
  have hbuffers : BuffersLegal State.reset := by decide
  have hquiet : Quiet State.reset := ⟨rfl, ⟨Nat.le_refl _, Nat.zero_le _⟩, ⟨rfl, rfl⟩, Nat.zero_le _⟩
  exact runInv_of_quiet (.inl rfl) hp hctrl hstatus hbuffers hquiet nofun

/-- R6: the defaults of the instantiation parameters are legal. -/
theorem standard_legal : Params.standard.Legal := by decide

/-- Resetting the reset state changes nothing. -/
theorem hardReset_reset : hardReset State.reset = State.reset := rfl

theorem runInv_reset : RunInv State.reset := by
  rw [← hardReset_reset]
  exact runInv_hardReset_of_legal standard_legal

/-- Settles O12: the invariant holds after any reset, the reset result list is empty, and RD_STATUS answers STATUS. -/
theorem resetStateSatisfiesTheInvariant : Obligations.ResetStateSatisfiesTheInvariant :=
  ⟨runInv_reset, holdsFrames_of_empty rfl rfl, reset_ctrlWord, _, rfl, congrArg BusResp.data reset_statusWord⟩

end Sys2Proof.Machine
end
